-- ==== Sys2Proof/Word.lean ====
section
/-! DEFINITION. The words of the machine: registers, addresses and instructions are 32 bits wide (00_scope.md R2, R9),
the unit of addressing is the byte (20_memory.md R70), a register field has 5 bits (10_state.md R20). -/

namespace Sys2Proof

/-- A register value, an address or an instruction word: bits 31 down to 0 (00_scope.md R8). -/
abbrev Word := BitVec 32

/-- One byte of either memory space. -/
abbrev Byte := BitVec 8

/-- A register field (rd, rsa or rsb) of an instruction word. -/
abbrev RegIx := BitVec 5

/-- The register files: 32 registers of 32 bits (10_state.md R20, R28). -/
abbrev RegFile := Vector Word 32

/-- A memory space: the bytes that something has written, by address, addresses strictly rising. -/
abbrev Memory := List (Nat × Byte)

end Sys2Proof
end

