-- ==== Sys2Proof/Config.lean ====
section
/-! DEFINITION. The implementation parameters of 00_scope.md R6, each a field of `Config`, and the open values: constants
with no body, which no proof can evaluate. The defaults of R6 are `Sys2Proof.Machine.defaultConfig`
(Machine/Parameters.lean). -/

namespace Sys2Proof

/-- `OPMAP`: which of the document's two opcode assignments is in force (30_encoding.md R113, R114). -/
inductive OpMap where
  | rev02
  | summary
  deriving DecidableEq, Repr, Inhabited

/-- The extension of an immediate to 32 bits (30_encoding.md R111). -/
inductive ImmExt where
  | sign
  | zero
  deriving DecidableEq, Repr, Inhabited

/-- `LI_MODE`: what a load immediate writes (43_load_immediate.md R201). -/
inductive LiMode where
  | whole
  | half
  deriving DecidableEq, Repr, Inhabited

/-- `J_MODE`: whether `j` and `jal` add the pc (44_branch_jump.md R226). -/
inductive JMode where
  | pcrelWhenRsaZero
  | alwaysRegister
  deriving DecidableEq, Repr, Inhabited

/-- `ALIGN_POLICY`: which data accesses must be aligned (20_memory.md R81). -/
inductive AlignPolicy where
  | strict
  | byte
  deriving DecidableEq, Repr, Inhabited

/-- `ShiftOver`: the result of a shift by 32 or more (40_integer.md R141): the mathematical shift, or the implementation's
own answer, which is open. -/
inductive ShiftOver where
  | mathematical
  | implementation
  deriving DecidableEq, Repr, Inhabited

/-- The four shift operations, as the first argument of `ShiftOver` (40_integer.md R148 to R151). -/
inductive ShiftOp where
  | sal
  | sar
  | sll
  | slr
  deriving DecidableEq, Repr, Inhabited

/-- A one-bit flag of STAT: a known value, or `any` (00_scope.md R10), which is drawn at each read (45_system.md R249). -/
inductive Flag where
  | known (b : Bool)
  | any
  deriving DecidableEq, Repr, Inhabited

/-- The flags of STAT that may hold `any` (10_state.md R66). -/
inductive StatFlag where
  | z
  | ov
  | pema
  deriving DecidableEq, Repr, Inhabited

/-- The permission levels that exist; 110 is reserved and never entered (10_state.md R45). -/
inductive Level where
  | lowUser
  | highUser
  | lowSupervisor
  | highSupervisor
  | lowHypervisor
  | highHypervisor
  | topHypervisor
  deriving DecidableEq, Repr, Inhabited

/-- The 3 bit code of a level in STAT.PML (10_state.md R45). -/
def Level.code : Level → BitVec 3
  | .lowUser => 0b000
  | .highUser => 0b001
  | .lowSupervisor => 0b010
  | .highSupervisor => 0b011
  | .lowHypervisor => 0b100
  | .highHypervisor => 0b101
  | .topHypervisor => 0b111

/-- The two values of `MAXPML`: with the hypervisor levels, which exist only when it is 7, and without them (00_scope.md R6,
60_exceptions.md R335). -/
inductive TopLevel where
  | highSupervisor
  | topHypervisor
  deriving DecidableEq, Repr, Inhabited

/-- The 3 bit code of `MAXPML` (10_state.md R66). -/
def TopLevel.code : TopLevel → BitVec 3
  | .highSupervisor => 0b011
  | .topHypervisor => 0b111

/-- The supervisor registers of Figure 3 (10_state.md R58). -/
inductive SupvReg where
  | smstat
  | rpcpr0
  | rpitp
  | htinfop
  | htctlp
  | ecode
  | sysctp
  deriving DecidableEq, Repr, Inhabited

/-- A run of addresses that hold memory: `size` bytes from `base` (20_memory.md R85). -/
structure Region where
  base : Nat
  size : Nat
  deriving DecidableEq, Repr, Inhabited

/-- One known answer of a mapped device to a read of `width` bytes: in this device state and at this address, the value and
the next state. -/
structure DeviceReadRow where
  state : Nat
  address : Word
  width : Nat
  value : Word
  next : Nat
  deriving DecidableEq, Repr, Inhabited

/-- One known answer of a mapped device to a write of `width` bytes: in this device state, the next one. -/
structure DeviceWriteRow where
  state : Nat
  address : Word
  width : Nat
  value : Word
  next : Nat
  deriving DecidableEq, Repr, Inhabited

/-- The rules a device or co-processor that the platform maps into the data space brings (20_memory.md R73, R84): the answers
that are known. Every other answer is open (log entry 33). -/
structure Device where
  reads : List DeviceReadRow
  writes : List DeviceWriteRow
  deriving DecidableEq, Repr, Inhabited

/-- A run of addresses of `DMemMap`: plain memory, or, with a device, a window of it (20_memory.md R84, R85). -/
structure DataRegion extends Region where
  device : Option Device
  deriving DecidableEq, Repr, Inhabited

/-- An entry of the System Call Table: the routine's address, the lowest level that may call it, and the level it runs at
(45_system.md R241). -/
structure SysCallEntry where
  entryPc : Word
  minPml : Level
  runPml : Level
  deriving DecidableEq, Repr, Inhabited

/-- One known answer of `SysCallTable`: for this SYSCTP and call number, no routine or this entry. -/
structure SysCallRow where
  sysctp : Word
  number : Byte
  entry : Option SysCallEntry
  deriving DecidableEq, Repr, Inhabited

/-- One known answer of `Resource.lock`: in this resource state and at this address, the code and the next state. -/
structure LockRow where
  state : Nat
  address : Word
  code : Word
  next : Nat
  deriving DecidableEq, Repr, Inhabited

/-- One known answer of `Resource.test`: in this resource state and at this address, the code. -/
structure TestRow where
  state : Nat
  address : Word
  code : Word
  deriving DecidableEq, Repr, Inhabited

/-- The argument `Resource` (45_system.md R251): the answers that are known. Every other answer is open. -/
structure Resource where
  locks : List LockRow
  tests : List TestRow
  deriving DecidableEq, Repr, Inhabited

/-- An interrupt vector beyond the six listed (`EXTRA_VECTORS`): its address and its enable bit of UINTEN
(60_exceptions.md R311). -/
structure ExtraVector where
  address : Word
  enableBit : RegIx
  deriving DecidableEq, Repr, Inhabited

/-- The parameters of 00_scope.md R6. `XLEN` and `ALEN` are fixed at 32 there and have no field. -/
structure Config where
  /-- `OPMAP`. -/
  opMap : OpMap
  /-- `CPUREV_VALUE`. -/
  cpurev : Byte
  /-- `CPNUM_VALUE`. -/
  cpnum : Byte
  /-- `PML_IMPLEMENTED`. -/
  pmlImplemented : Bool
  /-- `MAXPML`. -/
  maxPml : TopLevel
  /-- `OPCARP_HARDCODED`. -/
  opcarpHardcoded : Bool
  /-- `CPIDTP_HARDCODED`. -/
  cpidtpHardcoded : Bool
  /-- `SUPERVISOR_REGS`: the supervisor registers that `ldspr` and `stspr` can reach once a base is given. -/
  supervisorRegs : List SupvReg
  /-- `SUPV_SPR_BASE`. -/
  supvSprBase : Option Byte
  /-- `EXTRA_VECTORS`. -/
  extraVectors : List ExtraVector
  /-- `UNIFIED_MEMORY`. -/
  unifiedMemory : Bool
  /-- `LI_MODE`. -/
  liMode : LiMode
  /-- `J_MODE`. -/
  jMode : JMode
  /-- `IMM12_ARITH_EXT`. -/
  imm12ArithExt : ImmExt
  /-- `IMM12_LOGIC_EXT`. -/
  imm12LogicExt : ImmExt
  /-- `IMM14_EXT`. -/
  imm14Ext : ImmExt
  /-- `IMM21_EXT`. -/
  imm21Ext : ImmExt
  /-- `CMP_SIGNED`. -/
  cmpSigned : Bool
  /-- `ShiftOver`. -/
  shiftOver : ShiftOver
  /-- `OV_NONARITH`. -/
  ovNonArith : Flag
  /-- `ALIGN_POLICY`. -/
  alignPolicy : AlignPolicy
  /-- `IMemMap`. -/
  iMemMap : List Region
  /-- `DMemMap`: the addresses that hold memory, and the rules of the devices mapped among them (20_memory.md R84). -/
  dMemMap : List DataRegion
  /-- `SysCallTable`: none given, or the answers that are known (every other answer is open). -/
  sysCallTable : Option (List SysCallRow)
  /-- `PmirPolicy`: none given (a free choice per request), or the (level, requested level) pairs that are granted. -/
  pmirPolicy : Option (List (BitVec 3 × BitVec 3))
  /-- `Resource`: none given, or the world that owns the locks. -/
  resource : Option Resource
  /-- `UINTEN_ROI_BIT`. -/
  uintenRoiBit : RegIx
  /-- `UINTEN_CPMI_BIT`. -/
  uintenCpmiBit : RegIx
  /-- `BANK_SHARED`. -/
  bankShared : List RegIx
  /-- Whether `ExcEntry` is given. -/
  excEntryGiven : Bool
  /-- Whether `IntEntry` is given. -/
  intEntryGiven : Bool
  /-- The opcodes a hardware co-processor claims (47_coprocessor.md R282, R284). -/
  coProcClaimed : List (BitVec 6)
  /-- `CoProcExec`: the claimed opcodes whose function the model is given (47_coprocessor.md R284, "per claimed opcode"). -/
  coProcExec : List (BitVec 6)
  /-- `END_PC`. -/
  endPc : Option Word
  deriving DecidableEq, Repr, Inhabited

/-- The addresses of the data space that answer an access (20_memory.md R85). -/
def Config.dataMap (c : Config) : List Region := c.dMemMap.map DataRegion.toRegion

/-- What a hardware co-processor leaves of the shared state (47_coprocessor.md R284): the new GLBREGF, the bytes it stores, and
the new state of the mapped devices. -/
structure CoProcAnswer where
  glbregf : RegFile
  stores : List (Word × Byte)
  device : Nat
  deriving DecidableEq, Repr, Inhabited

/-- `CPUREV_VALUE` is "hard coded by the implementation" (10_state.md R42): open (log entry 11). -/
opaque Config.openCpurev : Byte

/-- What a byte of data memory that nothing has written reads as: drawn freely at each use, by the draw counter and the
address (93_implementation_defined.md U25; log entry 7). -/
opaque Config.freeByte : Nat → Word → Byte

/-- What a flag of STAT that holds `any` reads as, by the draw counter and the flag (45_system.md R249; log entry 6). -/
opaque Config.freeFlag : Nat → StatFlag → Bool

/-- Whether an upward permission request is granted when no `PmirPolicy` is given, by the draw counter, the level and the
requested level (45_system.md R256; log entry 18). -/
opaque Config.freeGrant : Nat → BitVec 3 → BitVec 3 → Bool

/-- The implementation's own result of a shift by 32 or more (40_integer.md R141; log entry 19). -/
opaque Config.openShift : ShiftOp → Word → Nat → Word

/-- The System Call Table where no row of the argument answers (45_system.md R241; log entry 16). -/
opaque Config.openSysCall : Word → Byte → Option SysCallEntry

/-- `Resource.lock` where no row of the argument answers: the code and the next resource state (45_system.md R252;
log entry 17). -/
opaque Config.openLock : Nat → Word → Word × Nat

/-- `Resource.test` where no row of the argument answers: the code (45_system.md R254; log entry 17). -/
opaque Config.openTest : Nat → Word → Word

/-- The level a routine runs at where its entry names one that does not exist on the machine, by the draw counter, the caller's
level and the level named (60_exceptions.md R335; log entry 16). -/
opaque Config.openRunLevel : Nat → BitVec 3 → BitVec 3 → BitVec 3

/-- What a mapped device answers to a read where no row of the argument does, by the draw counter, the device state, the address
and the number of bytes: the value and the next device state (20_memory.md R84; log entry 33). -/
opaque Config.openDeviceRead : Nat → Nat → Word → Nat → Word × Nat

/-- The device state after a write where no row of the argument answers, by the device state, the address, the number of bytes
and the value (20_memory.md R84; log entry 33). -/
opaque Config.openDeviceWrite : Nat → Word → Nat → Word → Nat

/-- `CoProcExec`: from the word, whose opcode selects the function, and the shared state (GLBREGF, the data space, the mapped
devices), the new shared state (47_coprocessor.md R284; log entry 20). -/
opaque Config.openCoProc : Word → RegFile → Memory → Nat → CoProcAnswer

end Sys2Proof
end

