-- ==== Sys2Proof/Machine/Parameters.lean ====
section
/-! DEFINITION. The parameter values this spec's rules, test vectors and programs use: the column "default" of
00_scope.md R6. -/

namespace Sys2Proof.Machine

/-- The whole 32 bit address space, as one region (20_memory.md R70). -/
def wholeSpace : List Region := [⟨0, 4294967296⟩]

/-- `BANK_SHARED`: $R16 to $R23 (10_state.md R25). -/
def sharedByDefault : List RegIx := [16, 17, 18, 19, 20, 21, 22, 23]

/-- The defaults of 00_scope.md R6. The parameters R6 leaves open stand so that nothing is settled: CPUREV_VALUE is an
opaque constant (log entry 11), the System Call Table and the resources are given with every answer open (log entries 16
and 17), a permission raise is a free choice per request (log entry 18). The two maps are the whole space
(DESIGN CHOICE, log entry 9). -/
def defaultConfig : Config where
  opMap := .rev02
  cpurev := Config.openCpurev
  cpnum := 0
  pmlImplemented := true
  maxPml := .topHypervisor
  opcarpHardcoded := false
  cpidtpHardcoded := false
  supervisorRegs := [.smstat, .rpcpr0, .rpitp, .htinfop, .htctlp, .ecode, .sysctp]
  supvSprBase := none
  extraVectors := []
  unifiedMemory := false
  liMode := .whole
  jMode := .pcrelWhenRsaZero
  imm12ArithExt := .sign
  imm12LogicExt := .zero
  imm14Ext := .sign
  imm21Ext := .sign
  cmpSigned := true
  shiftOver := .mathematical
  ovNonArith := .any
  alignPolicy := .strict
  iMemMap := wholeSpace
  dMemMap := [{ base := 0, size := 4294967296, device := none }]
  sysCallTable := some []
  pmirPolicy := none
  resource := some ⟨[], []⟩
  uintenRoiBit := 14
  uintenCpmiBit := 13
  bankShared := sharedByDefault
  excEntryGiven := false
  intEntryGiven := false
  coProcClaimed := []
  coProcExec := []
  endPc := none

end Sys2Proof.Machine
end

