-- ==== Sys2Proof/Syntax.lean ====
section
/-! DEFINITION. The 63 core instructions (00_scope.md R3, spec/opcode_table.json), one constructor per row, with the
operands of its format as they stand in the word (30_encoding.md R101 to R108). Fields an instruction does not use
(R126) are no operands. -/

namespace Sys2Proof

/-- The instructions of spec/opcode_table.json. -/
inductive Instr where
  -- Integer, format R (40_integer.md R142 to R152); the shifts carry their shft field (30_encoding.md R127)
  | add (rd rsa rsb : RegIx)
  | sub (rd rsa rsb : RegIx)
  | addu (rd rsa rsb : RegIx)
  | subu (rd rsa rsb : RegIx)
  | not (rd rsa : RegIx)
  | and (rd rsa rsb : RegIx)
  | or (rd rsa rsb : RegIx)
  | xor (rd rsa rsb : RegIx)
  | sal (rd rsa rsb : RegIx) (shft : BitVec 7)
  | sar (rd rsa rsb : RegIx) (shft : BitVec 7)
  | sll (rd rsa rsb : RegIx) (shft : BitVec 7)
  | slr (rd rsa rsb : RegIx) (shft : BitVec 7)
  | comp (rd rsa rsb : RegIx)
  -- Immediate, format I (41_immediate.md R162 to R172)
  | addi (rd rsa : RegIx) (imm : BitVec 12)
  | subi (rd rsa : RegIx) (imm : BitVec 12)
  | addui (rd rsa : RegIx) (imm : BitVec 12)
  | subui (rd rsa : RegIx) (imm : BitVec 12)
  | noti (rd : RegIx) (imm : BitVec 12)
  | andi (rd rsa : RegIx) (imm : BitVec 12)
  | ori (rd rsa : RegIx) (imm : BitVec 12)
  | xori (rd rsa : RegIx) (imm : BitVec 12)
  | sali (rd rsa : RegIx) (imm : BitVec 12)
  | sari (rd rsa : RegIx) (imm : BitVec 12)
  | slli (rd rsa : RegIx) (imm : BitVec 12)
  | slri (rd rsa : RegIx) (imm : BitVec 12)
  | compi (rd rsa : RegIx) (imm : BitVec 12)
  -- Load, format L (42_load_store.md R183 to R186)
  | lw (rd rsa : RegIx) (imm : BitVec 14)
  | lh (rd rsa : RegIx) (imm : BitVec 14)
  | lth (rd rsa : RegIx) (imm : BitVec 14)
  | lb (rd rsa : RegIx) (imm : BitVec 14)
  -- Store, format S: the first operand is the data register (42_load_store.md R187 to R190)
  | sw (rsb rsa : RegIx) (imm : BitVec 14)
  | sh (rsb rsa : RegIx) (imm : BitVec 14)
  | sth (rsb rsa : RegIx) (imm : BitVec 14)
  | sb (rsb rsa : RegIx) (imm : BitVec 14)
  -- Load immediate, format LI (43_load_immediate.md R202 to R213)
  | li (rd : RegIx) (imm : BitVec 16)
  | lsi (rd : RegIx) (imm : BitVec 16)
  | lgi (rd : RegIx) (imm : BitVec 16)
  | lui (rd : RegIx) (imm : BitVec 16)
  | lusi (rd : RegIx) (imm : BitVec 16)
  | lugi (rd : RegIx) (imm : BitVec 16)
  | lni (rd : RegIx) (imm : BitVec 16)
  | lnsi (rd : RegIx) (imm : BitVec 16)
  | lngi (rd : RegIx) (imm : BitVec 16)
  | luni (rd : RegIx) (imm : BitVec 16)
  | lunsi (rd : RegIx) (imm : BitVec 16)
  | lungi (rd : RegIx) (imm : BitVec 16)
  -- Branch, format B (44_branch_jump.md R222 to R225)
  | beq (rsa rsb : RegIx) (imm : BitVec 14)
  | bne (rsa rsb : RegIx) (imm : BitVec 14)
  | bgt (rsa rsb : RegIx) (imm : BitVec 14)
  | blt (rsa rsb : RegIx) (imm : BitVec 14)
  -- Jump, format J (44_branch_jump.md R228 to R231)
  | j (imm : BitVec 21)
  | jal (imm : BitVec 21)
  | jr (rsa : RegIx) (imm : BitVec 21)
  | jrl (rsa : RegIx) (imm : BitVec 21)
  -- System, format SYS (45_system.md R242 to R258)
  | syscall (number : Byte)
  | sysret
  | stspr (rsa : RegIx) (spr : Byte)
  | ldspr (rd : RegIx) (spr : Byte)
  | sync
  | lock (rd rsa : RegIx)
  | test (rd rsa : RegIx)
  | pmir (level : Byte)
  | pmd (level : Byte)
  deriving DecidableEq, Repr

end Sys2Proof
end

