-- ==== Sys2Proof/WellFormed.lean ====
section
/-! DEFINITION. What the encoding admits and what an assembler writes: the column "constraint" of
spec/opcode_table.json. -/

namespace Sys2Proof

/-- The instruction has a word of its own: `jr` and `jrl` with rsa = 0 would be `j` and `jal` (44_branch_jump.md R226,
"`jr imm($R0)` cannot be encoded"). -/
def Instr.encodable : Instr → Bool
  | .jr rsa _ => rsa != 0
  | .jrl rsa _ => rsa != 0
  | _ => true

/-- The shft field of a shift is 0, as an assembler writes it (30_encoding.md R127). -/
def Instr.shiftFieldClear : Instr → Bool
  | .sal _ _ _ shft => shft == 0
  | .sar _ _ _ shft => shft == 0
  | .sll _ _ _ shft => shft == 0
  | .slr _ _ _ shft => shft == 0
  | _ => true

/-- A well-formed instruction: one an assembler can produce. -/
def Instr.wellFormed (i : Instr) : Bool := i.encodable && i.shiftFieldClear

end Sys2Proof
end

