-- ==== Sys2Proof/Decode.lean ====
section
/-! DEFINITION. Decoding (30_encoding.md R120), total on every word and rejecting by name, for both opcode maps (R113,
R114), and the encoder after it, written from the same format tables (R101 to R110, R115). -/

namespace Sys2Proof

/-- The instruction classes of the opcode maps (30_encoding.md R113, R114). -/
inductive OpClass where
  | integer
  | immediate
  | loadImmediate
  | branch
  | jump
  | jumpLink
  | system
  | load
  | store
  | coProcessor
  deriving DecidableEq, Repr

/-- Why a word is illegal (30_encoding.md R120 to R125). -/
inductive DecodeError where
  /-- Fewer than four bytes (every instruction is one 32 bit word, R100). -/
  | truncated
  /-- The map in force does not assign the opcode (R124). -/
  | unassignedOpcode (op : BitVec 6)
  /-- aluop 0xd to 0xf of the R format (R121). -/
  | reservedAluop (aluop : BitVec 4)
  /-- aluop 0xd to 0xf of the I format (R121). -/
  | unlistedImmAluop (aluop : BitVec 4)
  /-- A DSEL value that is not listed (R122). -/
  | unlistedDsel (dsel : BitVec 5)
  /-- A system funct value that is not listed (R123). -/
  | unlistedFunct (funct : BitVec 8)
  deriving DecidableEq, Repr

/-- What a word decodes to (30_encoding.md R120): a core instruction, a word of the class CoProcessor
(47_coprocessor.md R281), or `illegal`. -/
inductive Decoded where
  | instr (i : Instr)
  | coProcessor (op : BitVec 6) (w : Word)
  | illegal (why : DecodeError)
  deriving DecidableEq, Repr

/-! ## The fields of a word (30_encoding.md R101 to R110) -/

/-- Bits 31:26, the opcode in every format (R100). -/
def opcodeOf (w : Word) : BitVec 6 := w.extractLsb' 26 6

/-- Bits 25:21, rd. -/
def rdOf (w : Word) : RegIx := w.extractLsb' 21 5

/-- Bits 20:16, rsa. -/
def rsaOf (w : Word) : RegIx := w.extractLsb' 16 5

/-- Bits 15:11, rsb. -/
def rsbOf (w : Word) : RegIx := w.extractLsb' 11 5

/-- Bits 10:4, shft (R101). -/
def shftOf (w : Word) : BitVec 7 := w.extractLsb' 4 7

/-- Bits 3:0, aluop (R101, R102). -/
def aluopOf (w : Word) : BitVec 4 := w.extractLsb' 0 4

/-- imm12: bits 15:4 (R110). -/
def imm12Of (w : Word) : BitVec 12 := w.extractLsb' 4 12

/-- The load's funct: bits 15:14 (R103). -/
def loadFunctOf (w : Word) : BitVec 2 := w.extractLsb' 14 2

/-- imm14 of a load: bits 13:0 (R110). -/
def loadImmOf (w : Word) : BitVec 14 := w.extractLsb' 0 14

/-- The store's funct: bits 25:24 (R105). -/
def storeFunctOf (w : Word) : BitVec 2 := w.extractLsb' 24 2

/-- imm14 of a store: bits 23:21 before bits 10:0 (R110). -/
def storeImmOf (w : Word) : BitVec 14 := w.extractLsb' 21 3 ++ w.extractLsb' 0 11

/-- DSEL: bits 20:16 (R104). -/
def dselOf (w : Word) : BitVec 5 := w.extractLsb' 16 5

/-- imm16: bits 15:0 (R110). -/
def imm16Of (w : Word) : BitVec 16 := w.extractLsb' 0 16

/-- The branch's funct: bits 1:0 (R107). -/
def branchFunctOf (w : Word) : BitVec 2 := w.extractLsb' 0 2

/-- imm14 of a branch: bits 25:21 before bits 10:2 (R110). -/
def branchImmOf (w : Word) : BitVec 14 := w.extractLsb' 21 5 ++ w.extractLsb' 2 9

/-- imm21: bits 25:21 before bits 15:0 (R110). -/
def imm21Of (w : Word) : BitVec 21 := w.extractLsb' 21 5 ++ w.extractLsb' 0 16

/-- The system funct: bits 15:8 (R108). -/
def sysFunctOf (w : Word) : BitVec 8 := w.extractLsb' 8 8

/-- imm8: bits 7:0 (R110). -/
def imm8Of (w : Word) : BitVec 8 := w.extractLsb' 0 8

/-! ## The opcode maps -/

/-- The class of an opcode in the map `REV02` (30_encoding.md R113); none where it is unassigned (R124). -/
def classOfRev02 (op : BitVec 6) : Option OpClass :=
  if op = 0x13 then some .integer
  else if op = 0x10 then some .loadImmediate
  else if op = 0x16 then some .immediate
  else if op = 0x0D then some .branch
  else if op = 0x0C then some .jump
  else if op = 0x04 then some .jumpLink
  else if op = 0x20 then some .system
  else if op = 0x1E then some .load
  else if op = 0x1D then some .store
  else if op.extractLsb' 4 2 = 0b11 then some .coProcessor
  else none

/-- The class of an opcode in the map `SUMMARY` (30_encoding.md R114). -/
def classOfSummary (op : BitVec 6) : Option OpClass :=
  if op = 0x01 then some .integer
  else if op = 0x03 then some .immediate
  else if op = 0x02 then some .loadImmediate
  else if op = 0x05 then some .branch
  else if op = 0x06 then some .jump
  else if op = 0x07 then some .jumpLink
  else if op = 0x08 then some .system
  else if op = 0x12 then some .load
  else if op = 0x1A then some .store
  else if op.extractLsb' 5 1 = 0b1 then some .coProcessor
  else none

/-- The class of an opcode in the map in force. -/
def classOf : OpMap → BitVec 6 → Option OpClass
  | .rev02, op => classOfRev02 op
  | .summary, op => classOfSummary op

/-! ## The second-level selectors (30_encoding.md R115) -/

/-- Format R, by aluop. -/
def decodeInteger (w : Word) : Decoded :=
  match aluopOf w with
  | 0x0#4 => .instr (.add (rdOf w) (rsaOf w) (rsbOf w))
  | 0x1#4 => .instr (.sub (rdOf w) (rsaOf w) (rsbOf w))
  | 0x2#4 => .instr (.addu (rdOf w) (rsaOf w) (rsbOf w))
  | 0x3#4 => .instr (.subu (rdOf w) (rsaOf w) (rsbOf w))
  | 0x4#4 => .instr (.not (rdOf w) (rsaOf w))
  | 0x5#4 => .instr (.and (rdOf w) (rsaOf w) (rsbOf w))
  | 0x6#4 => .instr (.or (rdOf w) (rsaOf w) (rsbOf w))
  | 0x7#4 => .instr (.xor (rdOf w) (rsaOf w) (rsbOf w))
  | 0x8#4 => .instr (.sal (rdOf w) (rsaOf w) (rsbOf w) (shftOf w))
  | 0x9#4 => .instr (.sar (rdOf w) (rsaOf w) (rsbOf w) (shftOf w))
  | 0xa#4 => .instr (.sll (rdOf w) (rsaOf w) (rsbOf w) (shftOf w))
  | 0xb#4 => .instr (.slr (rdOf w) (rsaOf w) (rsbOf w) (shftOf w))
  | 0xc#4 => .instr (.comp (rdOf w) (rsaOf w) (rsbOf w))
  | a => .illegal (.reservedAluop a)

/-- Format I, by aluop. -/
def decodeImmediate (w : Word) : Decoded :=
  match aluopOf w with
  | 0x0#4 => .instr (.addi (rdOf w) (rsaOf w) (imm12Of w))
  | 0x1#4 => .instr (.subi (rdOf w) (rsaOf w) (imm12Of w))
  | 0x2#4 => .instr (.addui (rdOf w) (rsaOf w) (imm12Of w))
  | 0x3#4 => .instr (.subui (rdOf w) (rsaOf w) (imm12Of w))
  | 0x4#4 => .instr (.noti (rdOf w) (imm12Of w))
  | 0x5#4 => .instr (.andi (rdOf w) (rsaOf w) (imm12Of w))
  | 0x6#4 => .instr (.ori (rdOf w) (rsaOf w) (imm12Of w))
  | 0x7#4 => .instr (.xori (rdOf w) (rsaOf w) (imm12Of w))
  | 0x8#4 => .instr (.sali (rdOf w) (rsaOf w) (imm12Of w))
  | 0x9#4 => .instr (.sari (rdOf w) (rsaOf w) (imm12Of w))
  | 0xa#4 => .instr (.slli (rdOf w) (rsaOf w) (imm12Of w))
  | 0xb#4 => .instr (.slri (rdOf w) (rsaOf w) (imm12Of w))
  | 0xc#4 => .instr (.compi (rdOf w) (rsaOf w) (imm12Of w))
  | a => .illegal (.unlistedImmAluop a)

/-- Format L, by funct. -/
def decodeLoad (w : Word) : Decoded :=
  match loadFunctOf w with
  | 0b00#2 => .instr (.lw (rdOf w) (rsaOf w) (loadImmOf w))
  | 0b01#2 => .instr (.lh (rdOf w) (rsaOf w) (loadImmOf w))
  | 0b10#2 => .instr (.lth (rdOf w) (rsaOf w) (loadImmOf w))
  | 0b11#2 => .instr (.lb (rdOf w) (rsaOf w) (loadImmOf w))

/-- Format S, by funct. -/
def decodeStore (w : Word) : Decoded :=
  match storeFunctOf w with
  | 0b00#2 => .instr (.sw (rsbOf w) (rsaOf w) (storeImmOf w))
  | 0b01#2 => .instr (.sh (rsbOf w) (rsaOf w) (storeImmOf w))
  | 0b10#2 => .instr (.sth (rsbOf w) (rsaOf w) (storeImmOf w))
  | 0b11#2 => .instr (.sb (rsbOf w) (rsaOf w) (storeImmOf w))

/-- Format LI, by DSEL. -/
def decodeLoadImmediate (w : Word) : Decoded :=
  match dselOf w with
  | 0x00#5 => .instr (.li (rdOf w) (imm16Of w))
  | 0x01#5 => .instr (.lsi (rdOf w) (imm16Of w))
  | 0x02#5 => .instr (.lgi (rdOf w) (imm16Of w))
  | 0x03#5 => .instr (.lui (rdOf w) (imm16Of w))
  | 0x04#5 => .instr (.lusi (rdOf w) (imm16Of w))
  | 0x05#5 => .instr (.lugi (rdOf w) (imm16Of w))
  | 0x08#5 => .instr (.lni (rdOf w) (imm16Of w))
  | 0x09#5 => .instr (.lnsi (rdOf w) (imm16Of w))
  | 0x0a#5 => .instr (.lngi (rdOf w) (imm16Of w))
  | 0x0b#5 => .instr (.luni (rdOf w) (imm16Of w))
  | 0x0c#5 => .instr (.lunsi (rdOf w) (imm16Of w))
  | 0x0d#5 => .instr (.lungi (rdOf w) (imm16Of w))
  | d => .illegal (.unlistedDsel d)

/-- Format B, by funct. -/
def decodeBranch (w : Word) : Decoded :=
  match branchFunctOf w with
  | 0b00#2 => .instr (.beq (rsaOf w) (rsbOf w) (branchImmOf w))
  | 0b01#2 => .instr (.bne (rsaOf w) (rsbOf w) (branchImmOf w))
  | 0b10#2 => .instr (.bgt (rsaOf w) (rsbOf w) (branchImmOf w))
  | 0b11#2 => .instr (.blt (rsaOf w) (rsbOf w) (branchImmOf w))

/-- Format J, opcode "Jump": rsa = 0 is `j`, anything else `jr`. -/
def decodeJump (w : Word) : Decoded :=
  if rsaOf w = 0 then .instr (.j (imm21Of w)) else .instr (.jr (rsaOf w) (imm21Of w))

/-- Format J, opcode "Jump and Link": rsa = 0 is `jal`, anything else `jrl`. -/
def decodeJumpLink (w : Word) : Decoded :=
  if rsaOf w = 0 then .instr (.jal (imm21Of w)) else .instr (.jrl (rsaOf w) (imm21Of w))

/-- Format SYS, by funct. -/
def decodeSystem (w : Word) : Decoded :=
  match sysFunctOf w with
  | 0x00#8 => .instr (.syscall (imm8Of w))
  | 0x01#8 => .instr .sysret
  | 0x02#8 => .instr (.stspr (rsaOf w) (imm8Of w))
  | 0x03#8 => .instr (.ldspr (rdOf w) (imm8Of w))
  | 0x04#8 => .instr .sync
  | 0x05#8 => .instr (.lock (rdOf w) (rsaOf w))
  | 0x06#8 => .instr (.test (rdOf w) (rsaOf w))
  | 0x07#8 => .instr (.pmir (imm8Of w))
  | 0x08#8 => .instr (.pmd (imm8Of w))
  | f => .illegal (.unlistedFunct f)

/-- Decode of a word under an opcode map: total (30_encoding.md R120). -/
def decodeWord (m : OpMap) (w : Word) : Decoded :=
  match classOf m (opcodeOf w) with
  | some .integer => decodeInteger w
  | some .immediate => decodeImmediate w
  | some .loadImmediate => decodeLoadImmediate w
  | some .branch => decodeBranch w
  | some .jump => decodeJump w
  | some .jumpLink => decodeJumpLink w
  | some .system => decodeSystem w
  | some .load => decodeLoad w
  | some .store => decodeStore w
  | some .coProcessor => .coProcessor (opcodeOf w) w
  | none => .illegal (.unassignedOpcode (opcodeOf w))

/-! ## Bytes (20_memory.md R74, R75) -/

/-- The word whose bytes, the lowest address first, are these: big endian. -/
def wordOfBytes (b0 b1 b2 b3 : Byte) : Word := b0 ++ b1 ++ b2 ++ b3

/-- The bytes of a word, the lowest address first: big endian. -/
def bytesOfWord (w : Word) : List Byte :=
  [w.extractLsb' 24 8, w.extractLsb' 16 8, w.extractLsb' 8 8, w.extractLsb' 0 8]

/-- Decode from the bytes of the instruction space: the first four are the word. -/
def decodeBytes (m : OpMap) : List Byte → Decoded
  | b0 :: b1 :: b2 :: b3 :: _ => decodeWord m (wordOfBytes b0 b1 b2 b3)
  | _ => .illegal .truncated

/-- The instruction read from a row's bits `w`, numbered as spec/opcode_table.json numbers them: laid out in the byte order of
the hardware and given to the decoder, under the default map. -/
def decodeTableWord (nbits w : Nat) : Option Instr :=
  if nbits ≤ 32 then
    match decodeBytes Machine.defaultConfig.opMap (bytesOfWord (BitVec.ofNat 32 (w % 2 ^ nbits))) with
    | .instr i => some i
    | .coProcessor _ _ => none
    | .illegal _ => none
  else none

/-! ## The encoder -/

/-- The opcode of a class in a map (30_encoding.md R113, R114). The class CoProcessor has many: its lowest. -/
def opcodeFor : OpMap → OpClass → BitVec 6
  | .rev02, .integer => 0x13
  | .rev02, .loadImmediate => 0x10
  | .rev02, .immediate => 0x16
  | .rev02, .branch => 0x0D
  | .rev02, .jump => 0x0C
  | .rev02, .jumpLink => 0x04
  | .rev02, .system => 0x20
  | .rev02, .load => 0x1E
  | .rev02, .store => 0x1D
  | .rev02, .coProcessor => 0x30
  | .summary, .integer => 0x01
  | .summary, .immediate => 0x03
  | .summary, .loadImmediate => 0x02
  | .summary, .branch => 0x05
  | .summary, .jump => 0x06
  | .summary, .jumpLink => 0x07
  | .summary, .system => 0x08
  | .summary, .load => 0x12
  | .summary, .store => 0x1A
  | .summary, .coProcessor => 0x20

/-- Format R (30_encoding.md R101). -/
def encodeR (m : OpMap) (rd rsa rsb : RegIx) (shft : BitVec 7) (aluop : BitVec 4) : Word :=
  opcodeFor m .integer ++ rd ++ rsa ++ rsb ++ shft ++ aluop

/-- Format I (R102). -/
def encodeI (m : OpMap) (rd rsa : RegIx) (imm : BitVec 12) (aluop : BitVec 4) : Word :=
  opcodeFor m .immediate ++ rd ++ rsa ++ imm ++ aluop

/-- Format L (R103). -/
def encodeL (m : OpMap) (rd rsa : RegIx) (funct : BitVec 2) (imm : BitVec 14) : Word :=
  opcodeFor m .load ++ rd ++ rsa ++ funct ++ imm

/-- Format LI (R104). -/
def encodeLI (m : OpMap) (rd : RegIx) (dsel : BitVec 5) (imm : BitVec 16) : Word :=
  opcodeFor m .loadImmediate ++ rd ++ dsel ++ imm

/-- Format S (R105). -/
def encodeS (m : OpMap) (funct : BitVec 2) (rsb rsa : RegIx) (imm : BitVec 14) : Word :=
  opcodeFor m .store ++ funct ++ imm.extractLsb' 11 3 ++ rsa ++ rsb ++ imm.extractLsb' 0 11

/-- Format J (R106), for the class Jump or Jump and Link. -/
def encodeJ (m : OpMap) (c : OpClass) (rsa : RegIx) (imm : BitVec 21) : Word :=
  opcodeFor m c ++ imm.extractLsb' 16 5 ++ rsa ++ imm.extractLsb' 0 16

/-- Format B (R107). -/
def encodeB (m : OpMap) (rsa rsb : RegIx) (imm : BitVec 14) (funct : BitVec 2) : Word :=
  opcodeFor m .branch ++ imm.extractLsb' 9 5 ++ rsa ++ rsb ++ imm.extractLsb' 0 9 ++ funct

/-- Format SYS (R108). -/
def encodeSys (m : OpMap) (rd rsa : RegIx) (funct : BitVec 8) (imm : BitVec 8) : Word :=
  opcodeFor m .system ++ rd ++ rsa ++ funct ++ imm

/-- The word of an instruction under an opcode map; unused bits are 0 (R126). -/
def encode (m : OpMap) : Instr → Word
  | .add rd rsa rsb => encodeR m rd rsa rsb 0 0x0
  | .sub rd rsa rsb => encodeR m rd rsa rsb 0 0x1
  | .addu rd rsa rsb => encodeR m rd rsa rsb 0 0x2
  | .subu rd rsa rsb => encodeR m rd rsa rsb 0 0x3
  | .not rd rsa => encodeR m rd rsa 0 0 0x4
  | .and rd rsa rsb => encodeR m rd rsa rsb 0 0x5
  | .or rd rsa rsb => encodeR m rd rsa rsb 0 0x6
  | .xor rd rsa rsb => encodeR m rd rsa rsb 0 0x7
  | .sal rd rsa rsb shft => encodeR m rd rsa rsb shft 0x8
  | .sar rd rsa rsb shft => encodeR m rd rsa rsb shft 0x9
  | .sll rd rsa rsb shft => encodeR m rd rsa rsb shft 0xa
  | .slr rd rsa rsb shft => encodeR m rd rsa rsb shft 0xb
  | .comp rd rsa rsb => encodeR m rd rsa rsb 0 0xc
  | .addi rd rsa imm => encodeI m rd rsa imm 0x0
  | .subi rd rsa imm => encodeI m rd rsa imm 0x1
  | .addui rd rsa imm => encodeI m rd rsa imm 0x2
  | .subui rd rsa imm => encodeI m rd rsa imm 0x3
  | .noti rd imm => encodeI m rd 0 imm 0x4
  | .andi rd rsa imm => encodeI m rd rsa imm 0x5
  | .ori rd rsa imm => encodeI m rd rsa imm 0x6
  | .xori rd rsa imm => encodeI m rd rsa imm 0x7
  | .sali rd rsa imm => encodeI m rd rsa imm 0x8
  | .sari rd rsa imm => encodeI m rd rsa imm 0x9
  | .slli rd rsa imm => encodeI m rd rsa imm 0xa
  | .slri rd rsa imm => encodeI m rd rsa imm 0xb
  | .compi rd rsa imm => encodeI m rd rsa imm 0xc
  | .lw rd rsa imm => encodeL m rd rsa 0b00 imm
  | .lh rd rsa imm => encodeL m rd rsa 0b01 imm
  | .lth rd rsa imm => encodeL m rd rsa 0b10 imm
  | .lb rd rsa imm => encodeL m rd rsa 0b11 imm
  | .sw rsb rsa imm => encodeS m 0b00 rsb rsa imm
  | .sh rsb rsa imm => encodeS m 0b01 rsb rsa imm
  | .sth rsb rsa imm => encodeS m 0b10 rsb rsa imm
  | .sb rsb rsa imm => encodeS m 0b11 rsb rsa imm
  | .li rd imm => encodeLI m rd 0x00 imm
  | .lsi rd imm => encodeLI m rd 0x01 imm
  | .lgi rd imm => encodeLI m rd 0x02 imm
  | .lui rd imm => encodeLI m rd 0x03 imm
  | .lusi rd imm => encodeLI m rd 0x04 imm
  | .lugi rd imm => encodeLI m rd 0x05 imm
  | .lni rd imm => encodeLI m rd 0x08 imm
  | .lnsi rd imm => encodeLI m rd 0x09 imm
  | .lngi rd imm => encodeLI m rd 0x0a imm
  | .luni rd imm => encodeLI m rd 0x0b imm
  | .lunsi rd imm => encodeLI m rd 0x0c imm
  | .lungi rd imm => encodeLI m rd 0x0d imm
  | .beq rsa rsb imm => encodeB m rsa rsb imm 0b00
  | .bne rsa rsb imm => encodeB m rsa rsb imm 0b01
  | .bgt rsa rsb imm => encodeB m rsa rsb imm 0b10
  | .blt rsa rsb imm => encodeB m rsa rsb imm 0b11
  | .j imm => encodeJ m .jump 0 imm
  | .jal imm => encodeJ m .jumpLink 0 imm
  | .jr rsa imm => encodeJ m .jump rsa imm
  | .jrl rsa imm => encodeJ m .jumpLink rsa imm
  | .syscall number => encodeSys m 0 0 0x00 number
  | .sysret => encodeSys m 0 0 0x01 0
  | .stspr rsa spr => encodeSys m 0 rsa 0x02 spr
  | .ldspr rd spr => encodeSys m rd 0 0x03 spr
  | .sync => encodeSys m 0 0 0x04 0
  | .lock rd rsa => encodeSys m rd rsa 0x05 0
  | .test rd rsa => encodeSys m rd rsa 0x06 0
  | .pmir level => encodeSys m 0 0 0x07 level
  | .pmd level => encodeSys m 0 0 0x08 level

end Sys2Proof
end

