-- ==== Sys2Proof/Machine/State.lean ====
section
/-! DEFINITION. The state of the core (10_state.md), what can stop a step, and the state after reset (10_state.md R66). -/

namespace Sys2Proof.Machine

/-- The active bank: which file the register fields of an instruction address (10_state.md R24). -/
inductive Bank where
  | user
  | sys
  deriving DecidableEq, Repr, Inhabited

/-- The exceptions of Figure 5 (60_exceptions.md R300). -/
inductive ExcCode where
  | insfpem
  | misaddr
  | halt
  | pterm
  | pkill
  | pexit
  | tterm
  | tkill
  | texit
  | invsys
  | invpr
  deriving DecidableEq, Repr

/-- The interrupts that can be recognised (60_exceptions.md R310, R311): CPMI, ROI, and the extra vectors of the
implementation. -/
inductive IntVec where
  | cpmi
  | roi
  | extra (v : ExtraVector)
  deriving DecidableEq, Repr

/-- The state of the machine. -/
structure State where
  /-- The model arguments of 00_scope.md R6; no step changes them (log entry 1). The model's own field. -/
  cfg : Config
  /-- The program counter (10_state.md R30). -/
  pc : Word
  /-- GPREGF (R20, R21), and the one home of the registers both banks share (R25). -/
  gpregf : RegFile
  /-- SYSREGF (R20, R22), but for the shared registers. -/
  sysregf : RegFile
  /-- GLBREGF (R28). -/
  glbregf : RegFile
  /-- The active bank (R24, R62). -/
  bank : Bank
  /-- STAT.Z (R34). -/
  statZ : Flag
  /-- STAT.OV (R35). -/
  statOV : Flag
  /-- STAT.PEMA (R46). -/
  statPema : Flag
  /-- STAT.PML (R45). -/
  statPml : BitVec 3
  /-- STAT.GINE (R47). -/
  statGine : Bool
  /-- STAT.SPCP (R48). -/
  statSpcp : Bool
  /-- OPCARP (R52). -/
  opcarp : Word
  /-- CPIDTP (R53). -/
  cpidtp : Word
  /-- UINTEN (R54). -/
  uinten : Word
  /-- RPTINFO (R55). -/
  rptinfo : Word
  /-- RPID (R56). -/
  rpid : BitVec 16
  /-- SMSTAT (R58, R61). -/
  smstat : Word
  /-- RPCPR0 (R58, R61). -/
  rpcpr0 : Word
  /-- RPITP (R58, R61). -/
  rpitp : Word
  /-- HTINFOP (R58, R61). -/
  htinfop : Word
  /-- HTCTLP (R58, R61). -/
  htctlp : Word
  /-- ECODE (R59). -/
  ecode : Byte
  /-- SYSCTP (R60). -/
  sysctp : Word
  /-- `sys_ret_pc` (R62). -/
  sysRetPc : Word
  /-- `sys_ret_pml` (R62). -/
  sysRetPml : BitVec 3
  /-- `int_pending[ROI]` (R62; 60_exceptions.md R314). -/
  roiPending : Bool
  /-- `int_pending` of the extra vectors: the addresses of those pending (R62; 60_exceptions.md R311). -/
  extraPending : List Word
  /-- The lock state of the resources outside the core (R62; 45_system.md R251). -/
  resource : Nat
  /-- The state of the devices the platform maps into the data space (20_memory.md R73, R84; log entry 33). -/
  device : Nat
  /-- The instruction space (20_memory.md R71): the bytes that were loaded. -/
  imem : Memory
  /-- The data space (20_memory.md R71): the bytes that something has written. -/
  dmem : Memory
  /-- The model's own field: how many draws of `any` the run has made (00_scope.md R10; log entry 12). -/
  draws : Nat
  deriving DecidableEq, Repr, Inhabited

/-- The faults: outcomes that end a run with no final state (70_reset_and_hazards.md R375). -/
inductive Fault where
  /-- `Exception(x)` (60_exceptions.md R302), with no `ExcEntry` given: raised by a misaligned fetch or access, a register
  or system call without permission, an invalid system call, an invalid level request. It carries the state at the stop,
  ECODE written. Safe: the chip goes on to a handler the spec does not give. -/
  | exception (x : ExcCode) (at_ : State)
  /-- `Interrupt(v)` (60_exceptions.md R310), with no `IntEntry` given: raised by the recognition of a pending enabled
  interrupt and by CPMI. It carries the state at the stop. Safe: the chip goes on at the vector. -/
  | interrupt (v : IntVec) (at_ : State)
  /-- IllegalInstruction (30_encoding.md R125): raised by a word that decodes to `illegal`, and by a co-processor word
  while SPCP is 0 (`why` is then none). It changes no state. Safe. -/
  | illegalInstruction (why : Option DecodeError)
  /-- A fetch from an address that holds no memory: the core is stuck (20_memory.md R85). Safe. -/
  | stuckFetch (address : Word)
  /-- A load or store that touches an address that holds no memory: the core is stuck (20_memory.md R85). Safe. -/
  | stuckData (address : Word)
  /-- A fetch of a byte nothing has loaded (93_implementation_defined.md U25; log entry 8). Safe. -/
  | fetchNotLoaded (address : Word)
  deriving DecidableEq, Repr

/-- The refusals: the spec gives the situation no meaning (00_scope.md R10, `refuse`). -/
inductive Refusal where
  /-- exec has no meaning for the instruction yet. Safe. -/
  | notModelled (mnemonic : String)
  /-- A shift whose shft field is not 0 (30_encoding.md R127). Safe. -/
  | shiftFieldNotZero (shft : BitVec 7)
  /-- `ldspr` or `stspr` with an address that names no register (45_system.md R247). Safe. -/
  | noSuchSpr (address : Byte)
  /-- `stspr` to a hard-coded register (45_system.md R248). Safe. -/
  | hardCodedSpr (address : Byte)
  /-- `syscall` with no `SysCallTable` given (45_system.md R242). Safe. -/
  | noSysCallTable
  /-- `syscall` while the bank is SYS (45_system.md R242). Safe. -/
  | nestedSysCall
  /-- `sysret` with no system call outstanding (45_system.md R244). Safe. -/
  | noSysCallOutstanding
  /-- `lock` or `test` with no `Resource` given (45_system.md R251). Safe. -/
  | noResource
  /-- A co-processor word with SPCP = 1 and the CPMI interrupt not enabled (47_coprocessor.md R282). Safe. -/
  | cpmiNotEnabled
  /-- A claimed co-processor opcode whose function `CoProcExec` is not given (47_coprocessor.md R284). Safe. -/
  | noCoProcExec
  /-- In a unified memory, a fetch from an address the program has stored to (20_memory.md R90). Safe. -/
  | fetchFromStored (address : Word)
  deriving DecidableEq, Repr

/-- The state after reset of a machine with these model arguments (10_state.md R66; log entries 2 to 8, 33). -/
def State.resetWith (c : Config) : State where
  cfg := c
  pc := 0x00000000
  gpregf := Vector.replicate 32 0
  sysregf := Vector.replicate 32 0
  glbregf := Vector.replicate 32 0
  bank := .user
  statZ := .any
  statOV := .any
  statPema := .any
  statPml := c.maxPml.code
  statGine := false
  statSpcp := false
  opcarp := 0
  cpidtp := 0
  uinten := 0
  rptinfo := 0
  rpid := 0
  smstat := 0
  rpcpr0 := 0
  rpitp := 0
  htinfop := 0
  htctlp := 0
  ecode := 0
  sysctp := 0
  sysRetPc := 0
  sysRetPml := 0
  roiPending := false
  extraPending := []
  resource := 0
  device := 0
  imem := []
  dmem := []
  draws := 0

/-- The machine right after reset (10_state.md R66), with the default model arguments of 00_scope.md R6. -/
def State.reset : State := State.resetWith defaultConfig

end Sys2Proof.Machine
end

