-- ==== Sys2Proof/Machine/Ops.lean ====
section
/-! DEFINITION. The named operations over memory and registers, taking an exception or an interrupt, and the return from a
system call. -/

namespace Sys2Proof.Machine

/-- The outcome of a step of this machine. -/
abbrev Result := Host.Outcome State Fault Refusal

/-! ## Memory: the written bytes by address, addresses strictly rising -/

/-- The byte at an address; none where nothing has written one. -/
def memRead : Memory → Nat → Option Byte
  | [], _ => none
  | (k, b) :: m, a => if a = k then some b else if a < k then none else memRead m a

/-- Write one byte, keeping the addresses strictly rising. -/
def memWrite : Memory → Nat → Byte → Memory
  | [], a, b => [(a, b)]
  | (k, v) :: m, a, b =>
    if a = k then (a, b) :: m
    else if a < k then (a, b) :: (k, v) :: m
    else (k, v) :: memWrite m a b

/-- Every address of the memory is above this one, and they rise strictly and stay below 2^32. -/
def memRises : Nat → Memory → Bool
  | _, [] => true
  | lo, (k, _) :: m => decide (lo ≤ k) && decide (k < 4294967296) && memRises (k + 1) m

/-- The canonical form of a memory: 32 bit addresses (20_memory.md R70), strictly rising. An unlisted address has no
value, so that no entry can equal what one reads as. -/
def memWf (m : Memory) : Bool := memRises 0 m

/-- Whether an address holds memory (20_memory.md R85). -/
def mapped (map : List Region) (a : Word) : Bool :=
  map.any fun r => decide (r.base ≤ a.toNat) && decide (a.toNat < r.base + r.size)

/-- Whether the `n` addresses from `a`, modulo 2^32, all hold memory (42_load_store.md R181). -/
def allMapped (map : List Region) (a : Word) : Nat → Bool
  | 0 => true
  | n + 1 => allMapped map a n && mapped map (a + BitVec.ofNat 32 n)

/-- The byte of the data space at an address; none where nothing has written one. In a unified memory the loaded program
is data too (20_memory.md R90; log entry 23). -/
def dataByte? (s : State) (a : Word) : Option Byte :=
  match memRead s.dmem a.toNat with
  | some b => some b
  | none => if s.cfg.unifiedMemory then memRead s.imem a.toNat else none

/-- What a load reads at an address: the byte there, or a fresh draw where nothing has written one
(70_reset_and_hazards.md R351; log entry 7). -/
def dataByte (s : State) (a : Word) : Byte :=
  (dataByte? s a).getD (Config.freeByte s.draws a)

/-- `MemRead(a, n)`: big endian, zero-extended to 32 bits (20_memory.md R76). -/
def loadValue (s : State) (a : Word) : Nat → Word
  | 0 => 0
  | n + 1 => (loadValue s a n <<< 8) ||| (dataByte s (a + BitVec.ofNat 32 n)).setWidth 32

/-- `MemWrite(a, n, v)`: the low 8n bits of `v`, the most significant byte at the lowest address (20_memory.md R77). -/
def storeValue (m : Memory) (a : Word) (v : Word) : Nat → Memory
  | 0 => m
  | n + 1 => memWrite (storeValue m a (v >>> 8) n) (a + BitVec.ofNat 32 n).toNat (v.setWidth 8)

/-! ## The data space as the core sees it: memory and mapped devices -/

/-- The stored bytes laid over the loaded ones: a stored byte hides a loaded one. -/
def overlay (loaded : Memory) : Memory → Memory
  | [] => loaded
  | (a, b) :: m => memWrite (overlay loaded m) a b

/-- The data space as one memory. In a unified memory the loaded program is data too (20_memory.md R71, R90; log entry 23). -/
def dataSpace (s : State) : Memory := if s.cfg.unifiedMemory then overlay s.imem s.dmem else s.dmem

/-- The address lies in the window of a mapped device (20_memory.md R84). Where a window overlaps plain memory the device has the
address (DESIGN CHOICE, log entry 33). -/
def isDevice (map : List DataRegion) (a : Word) : Bool :=
  map.any fun r => r.device.isSome && mapped [r.toRegion] a

/-- One of the `n` addresses from `a` lies in the window of a mapped device. -/
def touchesDevice (map : List DataRegion) (a : Word) : Nat → Bool
  | 0 => false
  | n + 1 => touchesDevice map a n || isDevice map (a + BitVec.ofNat 32 n)

/-- The low `8n` bits of a value, which a store of `n` bytes writes (20_memory.md R77). -/
def lowBytes (n : Nat) (v : Word) : Word := v &&& BitVec.ofNat 32 (2 ^ (8 * n) - 1)

/-- What the mapped devices answer to a read of `n` bytes at `a`, and their state after it: the known answer, or an open one
(20_memory.md R84; log entry 33). -/
def deviceRead (s : State) (a : Word) (n : Nat) : Word × Nat :=
  let rows := s.cfg.dMemMap.flatMap fun r => (r.device.map Device.reads).getD []
  match rows.find? fun row => row.state == s.device && row.address == a && row.width == n with
  | some row => (row.value, row.next)
  | none => Config.openDeviceRead s.draws s.device a n

/-- The state of the mapped devices after a write of the low `n` bytes of `v` at `a`: the known answer, or an open one
(20_memory.md R84; log entry 33). -/
def deviceWrite (s : State) (a : Word) (n : Nat) (v : Word) : Nat :=
  let rows := s.cfg.dMemMap.flatMap fun r => (r.device.map Device.writes).getD []
  match rows.find? fun row =>
    row.state == s.device && row.address == a && row.width == n && row.value == lowBytes n v with
  | some row => row.next
  | none => Config.openDeviceWrite s.device a n (lowBytes n v)

/-- The first `k` bytes of a read of `n` bytes that touches a device: a byte in a window is the device's, any other is
memory's (log entry 33). -/
def mixedValue (s : State) (answer : Word) (a : Word) (n : Nat) : Nat → Word
  | 0 => 0
  | k + 1 =>
    let here := a + BitVec.ofNat 32 k
    let byte := if isDevice s.cfg.dMemMap here then answer.extractLsb' (8 * (n - 1 - k)) 8 else dataByte s here
    (mixedValue s answer a n k <<< 8) ||| byte.setWidth 32

/-- What a load of `n` bytes at `a` reads, and the device state after it. Outside the windows of devices it is `MemRead` and has
no side effect (20_memory.md R76, R84). -/
def readAccess (s : State) (a : Word) (n : Nat) : Word × Nat :=
  if touchesDevice s.cfg.dMemMap a n then
    let answer := deviceRead s a n
    (mixedValue s answer.1 a n n, answer.2)
  else (loadValue s a n, s.device)

/-- What a store of the low `n` bytes of `v` at `a` leaves: the data memory and the device state (20_memory.md R77, R84). A byte
stored into a device's window is listed too: no load reads it there, and it records that the address has been stored to, which
in a unified memory bars its fetch (R90; log entry 33). -/
def writeAccess (s : State) (a : Word) (n : Nat) (v : Word) : Memory × Nat :=
  (storeValue s.dmem a v n, if touchesDevice s.cfg.dMemMap a n then deviceWrite s a n v else s.device)

/-! ## Registers -/

/-- Register `i` of a file. -/
def fileGet (f : RegFile) (i : RegIx) : Word := f[i.toNat]'i.isLt

/-- The file with register `i` changed. -/
def fileSet (f : RegFile) (i : RegIx) (v : Word) : RegFile := f.set i.toNat v i.isLt

/-- Whether register `i` of a bank has its storage in GPREGF: the USER bank, and the shared registers of the SYS bank
(10_state.md R24, R25). -/
def homeIsGp (c : Config) (b : Bank) (i : RegIx) : Bool :=
  b == .user || c.bankShared.contains i

/-- `GPREGF[i]` or `SYSREGF[i]`: register 0 reads 0 (10_state.md R23). -/
def readBank (b : Bank) (i : RegIx) (s : State) : Word :=
  if i = 0 then 0
  else if homeIsGp s.cfg b i then fileGet s.gpregf i
  else fileGet s.sysregf i

/-- `GPREGF[i] <- v` or `SYSREGF[i] <- v`: a write to register 0 is discarded (10_state.md R23). -/
def writeBank (b : Bank) (i : RegIx) (v : Word) (s : State) : State :=
  if i = 0 then s
  else if homeIsGp s.cfg b i then { s with gpregf := fileSet s.gpregf i v }
  else { s with sysregf := fileSet s.sysregf i v }

/-- `x[i]`: register `i` of the active bank (00_scope.md R10). -/
def readReg (i : RegIx) (s : State) : Word := readBank s.bank i s

/-- `x[i] <- v` (00_scope.md R10). -/
def writeReg (i : RegIx) (v : Word) (s : State) : State := writeBank s.bank i v s

/-- `GLBREGF[i]`: no hard-wired entry (10_state.md R28). No core instruction reads it. -/
def readGlobal (i : RegIx) (s : State) : Word := fileGet s.glbregf i

/-- `GLBREGF[i] <- v` (10_state.md R28). -/
def writeGlobal (i : RegIx) (v : Word) (s : State) : State := { s with glbregf := fileSet s.glbregf i v }

/-- `$R4`, which receives the return address of a linking jump (10_state.md R26). -/
def linkReg : RegIx := 4

/-! ## The program counter -/

/-- `pc <- t`. -/
def setPc (t : Word) (s : State) : State := { s with pc := t }

/-- `pc <- pc + 4`, modulo 2^32 (10_state.md R31, R33). -/
def advance (s : State) : State := { s with pc := s.pc + 4 }

/-! ## The permission level -/

/-- STAT.PML as it reads: 111 always where the levels are not implemented (10_state.md R50). -/
def level (s : State) : BitVec 3 := if s.cfg.pmlImplemented then s.statPml else 0b111

/-- STAT.PEMA as it reads: 1 always where the levels are not implemented (10_state.md R50). -/
def pema (s : State) : Flag := if s.cfg.pmlImplemented then s.statPema else .known true

/-- `STAT.PML <- p`: no effect where the levels are not implemented (10_state.md R50). -/
def setLevel (p : BitVec 3) (s : State) : State :=
  if s.cfg.pmlImplemented then { s with statPml := p } else s

/-- `STAT.PEMA <- b`: no effect where the levels are not implemented (10_state.md R50). -/
def setPema (b : Bool) (s : State) : State :=
  if s.cfg.pmlImplemented then { s with statPema := .known b } else s

/-! ## Taking an exception or an interrupt, and returning from a system call -/

/-- The code of an exception in Figure 5 (60_exceptions.md R300). -/
def excNumber : ExcCode → BitVec 16
  | .insfpem => 0x0000
  | .misaddr => 0x0001
  | .halt => 0x0002
  | .pterm => 0x0003
  | .pkill => 0x0004
  | .pexit => 0x0005
  | .tterm => 0x0006
  | .tkill => 0x0007
  | .texit => 0x0008
  | .invsys => 0x0009
  | .invpr => 0x000a

end Sys2Proof.Machine

namespace Sys2Proof

/-- `ExcEntry`: the state a run goes on from after an exception, where the model is given one (60_exceptions.md R302;
log entry 13). -/
opaque Config.openExcEntry : Machine.State → Machine.ExcCode → Machine.State

/-- `IntEntry`: the state a run goes on from after an interrupt, where the model is given one (60_exceptions.md R310;
log entry 15). -/
opaque Config.openIntEntry : Machine.State → Machine.IntVec → Machine.State

end Sys2Proof

namespace Sys2Proof.Machine

/-- The state an exception leaves: ECODE receives the low 8 bits of the code and nothing else changes
(60_exceptions.md R302). -/
def recordException (x : ExcCode) (s : State) : State := { s with ecode := (excNumber x).setWidth 8 }

/-- `raise x` (60_exceptions.md R302): ECODE is written; the step ends with the outcome `Exception(x)`, a fault that carries
the state, or, where `ExcEntry` is given, the run goes on from it. -/
def raise (x : ExcCode) (s : State) : Result :=
  if s.cfg.excEntryGiven then
    .next { Config.openExcEntry (recordException x s) x with cfg := s.cfg }
  else .fault (.exception x (recordException x s))

/-- The address of an interrupt's vector entry (20_memory.md R85). -/
def vectorAddress : IntVec → Word
  | .cpmi => 0x0008
  | .roi => 0x0010
  | .extra v => v.address

/-- The enable bit of an interrupt in UINTEN (10_state.md R54; 60_exceptions.md R311). -/
def enableBit (c : Config) : IntVec → RegIx
  | .cpmi => c.uintenCpmiBit
  | .roi => c.uintenRoiBit
  | .extra v => v.enableBit

/-- Both switches that gate an interrupt are on: STAT.GINE and its bit of UINTEN (60_exceptions.md R312). -/
def intEnabled (s : State) (v : IntVec) : Bool :=
  s.statGine && s.uinten.getLsbD (enableBit s.cfg v).toNat

/-- The pending bit of an interrupt is cleared at its recognition (60_exceptions.md R312; log entry 14). CPMI has none
(R316). -/
def clearPending (v : IntVec) (s : State) : State :=
  match v with
  | .cpmi => s
  | .roi => { s with roiPending := false }
  | .extra e => { s with extraPending := s.extraPending.filter (· != e.address) }

/-- The state a run goes on from after an interrupt where `IntEntry` is given: the pc is the vector's address (20_memory.md R85)
and the pending bit is clear; the rest is what `IntEntry` invents (60_exceptions.md R310; log entry 15). -/
def enterInterrupt (v : IntVec) (s : State) : State :=
  { clearPending v (Config.openIntEntry (clearPending v s) v) with cfg := s.cfg, pc := vectorAddress v }

/-- `interrupt v` (60_exceptions.md R310): the step ends with the outcome `Interrupt(v)`, a fault that carries the state, or,
where `IntEntry` is given, the run goes on from it. -/
def takeInterrupt (v : IntVec) (s : State) : Result :=
  if s.cfg.intEntryGiven then .next (enterInterrupt v s)
  else .fault (.interrupt v (clearPending v s))

/-- A level exists on the machine: it is not the reserved 110 and not above MAXPML (10_state.md R45, 60_exceptions.md R335). -/
def levelExists (c : Config) (p : BitVec 3) : Bool := decide (p ≠ 0b110) && decide (p.toNat ≤ c.maxPml.code.toNat)

/-- The level a system call routine runs at: the higher of the caller's and the entry's (45_system.md R242). Where the entry
names a level above MAXPML, which does not exist (60_exceptions.md R335), the spec states no level: it is a free draw among the
levels that exist and are not below the caller's (DESIGN CHOICE, log entry 16). -/
def routineLevel (e : SysCallEntry) (s : State) : BitVec 3 :=
  if e.runPml.code.toNat ≤ (level s).toNat then level s
  else if levelExists s.cfg e.runPml.code then e.runPml.code
  else
    let drawn := Config.openRunLevel s.draws (level s) e.runPml.code
    if levelExists s.cfg drawn && decide ((level s).toNat ≤ drawn.toNat) then drawn else level s

/-- What an accepted system call does: the return state is saved, PEMA is 1, the level is raised and never lowered, the bank
is SYS, and control goes to the routine (45_system.md R242). -/
def enterSysCall (e : SysCallEntry) (s : State) : State :=
  let saved := { s with sysRetPc := s.pc + 4, sysRetPml := level s, draws := s.draws + 1 }
  setPc e.entryPc { setLevel (routineLevel e s) (setPema true saved) with bank := .sys }

/-- The return from a system call: the bank is USER, and the level and the pc are the saved ones (45_system.md R244). The
instruction set has no return from an exception or an interrupt (60_exceptions.md R322). -/
def returnFromSysCall (s : State) : State :=
  setPc s.sysRetPc { setLevel s.sysRetPml s with bank := .user }

end Sys2Proof.Machine
end

