-- ==== Sys2Proof/Machine/Operands.lean ====
section
/-! DEFINITION. The operand forms: the extension of every immediate (30_encoding.md R111), effective addresses and targets,
shift amounts and results, comparisons, and what a load immediate writes. -/

namespace Sys2Proof.Machine

/-! ## Immediates -/

/-- `sext_N` or `zext_N` (00_scope.md R9), as the parameter says. -/
def extend (e : ImmExt) {n : Nat} (v : BitVec n) : Word :=
  match e with
  | .sign => v.signExtend 32
  | .zero => v.setWidth 32

/-- imm12 of addi, subi, addui, subui, compi (30_encoding.md R111). -/
def immArith (imm : BitVec 12) (s : State) : Word := extend s.cfg.imm12ArithExt imm

/-- imm12 of noti, andi, ori, xori (30_encoding.md R111). -/
def immLogic (imm : BitVec 12) (s : State) : Word := extend s.cfg.imm12LogicExt imm

/-- The effective address of a load or store (42_load_store.md R180). -/
def effAddr (rsa : RegIx) (imm : BitVec 14) (s : State) : Word :=
  readReg rsa s + extend s.cfg.imm14Ext imm

/-- The target of a taken branch, relative to the address of the branch (44_branch_jump.md R220). -/
def branchTarget (imm : BitVec 14) (s : State) : Word := s.pc + extend s.cfg.imm14Ext imm

/-- The target of `j` and `jal`: relative to the address of the jump, or, under `J_MODE = always_register`, to $R0
(44_branch_jump.md R226). -/
def jumpTarget (imm : BitVec 21) (s : State) : Word :=
  match s.cfg.jMode with
  | .pcrelWhenRsaZero => s.pc + extend s.cfg.imm21Ext imm
  | .alwaysRegister => readReg 0 s + extend s.cfg.imm21Ext imm

/-- The target of `jr` and `jrl`: absolute, with no pc in it (44_branch_jump.md R226). -/
def jumpRegTarget (rsa : RegIx) (imm : BitVec 21) (s : State) : Word :=
  readReg rsa s + extend s.cfg.imm21Ext imm

/-! ## Shifts -/

/-- The mathematical shift (40_integer.md R141, R148 to R151), for an amount below 32. -/
def shiftExact (op : ShiftOp) (a : Word) (n : Nat) : Word :=
  match op with
  | .sal => a <<< n
  | .sar => a.sshiftRight n
  | .sll => a <<< n
  | .slr => a >>> n

/-- `ShiftOver(op, a, n)` by its default, the mathematical shift: 0, or 32 copies of the sign bit for sar
(40_integer.md R141). -/
def shiftOut (op : ShiftOp) (a : Word) : Word :=
  match op with
  | .sal => 0
  | .sar => if a.msb then BitVec.allOnes 32 else 0
  | .sll => 0
  | .slr => 0

/-- The result of a shift by `n` (40_integer.md R148 to R151). -/
def shiftResult (c : Config) (op : ShiftOp) (a : Word) (n : Nat) : Word :=
  if n < 32 then shiftExact op a n
  else
    match c.shiftOver with
    | .mathematical => shiftOut op a
    | .implementation => Config.openShift op a n

/-! ## Comparisons -/

/-- `a > b`, signed or, with `CMP_SIGNED = false`, unsigned (40_integer.md R152, 44_branch_jump.md R221). -/
def greater (c : Config) (a b : Word) : Bool := if c.cmpSigned then b.slt a else b.ult a

/-- The result of comp and compi: 0 if equal, 1 if greater, -1 if less (40_integer.md R152, 41_immediate.md R172). -/
def compResult (c : Config) (a b : Word) : Word :=
  if a = b then 0x00000000 else if greater c a b then 0x00000001 else 0xFFFFFFFF

/-! ## Load immediates -/

/-- The file a load immediate names in its DSEL field (43_load_immediate.md R200). -/
inductive ImmFile where
  | gp
  | sys
  | glb
  deriving DecidableEq, Repr

/-- Which half the immediate goes to, and how a lower half is extended (43_load_immediate.md R200, R201). -/
inductive ImmForm where
  | lowerSigned
  | lowerUnsigned
  | upper
  deriving DecidableEq, Repr

/-- What the register holds after a load immediate, given what it held (43_load_immediate.md R201). -/
def immValue (mode : LiMode) (form : ImmForm) (old : Word) (imm : BitVec 16) : Word :=
  match mode, form with
  | .whole, .lowerSigned => imm.signExtend 32
  | .whole, .lowerUnsigned => imm.setWidth 32
  | .whole, .upper => imm ++ (0 : BitVec 16)
  | .half, .lowerSigned => old.extractLsb' 16 16 ++ imm
  | .half, .lowerUnsigned => old.extractLsb' 16 16 ++ imm
  | .half, .upper => imm ++ old.extractLsb' 0 16

/-- Register `i` of the named file, whatever bank is active (43_load_immediate.md R200). -/
def readFile (f : ImmFile) (i : RegIx) (s : State) : Word :=
  match f with
  | .gp => readBank .user i s
  | .sys => readBank .sys i s
  | .glb => readGlobal i s

/-- Write register `i` of the named file, whatever bank is active (43_load_immediate.md R200). -/
def writeFile (f : ImmFile) (i : RegIx) (v : Word) (s : State) : State :=
  match f with
  | .gp => writeBank .user i v s
  | .sys => writeBank .sys i v s
  | .glb => writeGlobal i v s

/-! ## Alignment -/

/-- A data access of `n` bytes at `a` fails the alignment test (20_memory.md R81): under `strict`, 4 bytes need a multiple
of 4 and 2 bytes a multiple of 2; 1 and 3 bytes need nothing. -/
def misaligned (c : Config) (a : Word) (n : Nat) : Bool :=
  match c.alignPolicy with
  | .byte => false
  | .strict =>
    (n == 4 && a.extractLsb' 0 2 != 0) || (n == 2 && a.extractLsb' 0 1 != 0)

end Sys2Proof.Machine
end

