-- ==== Sys2Proof/Machine/Flags.lean ====
section
/-! DEFINITION. The two flags of STAT (10_state.md R34, R35) and the shared endings of the integer and immediate families
(40_integer.md R140, 41_immediate.md R160). -/

namespace Sys2Proof.Machine

/-- Z: the result is 0 (10_state.md R34). -/
def zeroFlag (r : Word) : Bool := r == 0

/-- OV of add and addi: the carry out of bit 31, `u(a) + u(b) >= 2^32` (10_state.md R35). -/
def addCarry (a b : Word) : Bool := decide (4294967296 ≤ a.toNat + b.toNat)

/-- OV of sub and subi: the borrow, `u(a) < u(b)` (10_state.md R35). -/
def subBorrow (a b : Word) : Bool := decide (a.toNat < b.toNat)

/-- The common ending: Rd receives the result, Z says whether it is 0, and the pc advances; OV is left unchanged
(40_integer.md R140; addu, subu, addui, subui). -/
def finishKeepOV (rd : RegIx) (r : Word) (s : State) : State :=
  advance { writeReg rd r s with statZ := .known (zeroFlag r) }

/-- The ending of add, sub, addi, subi: OV is written, and OV = 1 makes the ROI interrupt pending
(60_exceptions.md R314). -/
def finishArith (rd : RegIx) (r : Word) (ov : Bool) (s : State) : State :=
  { finishKeepOV rd r s with statOV := .known ov, roiPending := s.roiPending || ov }

/-- The ending of the logic, shift and compare instructions: OV holds `any` (`OV_NONARITH`, 10_state.md R35), and ROI is
never caused (60_exceptions.md R314). -/
def finishFreeOV (rd : RegIx) (r : Word) (s : State) : State :=
  { finishKeepOV rd r s with statOV := s.cfg.ovNonArith }

end Sys2Proof.Machine
end

