-- ==== Sys2Proof/Machine/CoProcessor.lean ====
section
/-! DEFINITION. What the core does with a co-processor word (47_coprocessor.md R282, R284). -/

namespace Sys2Proof.Machine

/-- A hardware co-processor claims the opcode: only where CPNUM_VALUE is not 0 (47_coprocessor.md R282). -/
def claimed (c : Config) (op : BitVec 6) : Bool := c.cpnum != 0 && c.coProcClaimed.contains op

/-- The bytes a co-processor stores, one after another (47_coprocessor.md R284). DESIGN CHOICE, log entry 20: it stores at any
address, also one outside `DMemMap`, and in a unified memory its stores count as the program's for the refusal of a later fetch
(20_memory.md R90). -/
def storeBytes (m : Memory) : List (Word × Byte) → Memory
  | [] => m
  | (a, b) :: rest => storeBytes (memWrite m a.toNat b) rest

/-- A claimed word: the shared state changes as `CoProcExec` says, and the core's own state only by `pc <- pc + 4`
(47_coprocessor.md R284). DESIGN CHOICE, log entry 20: what it reads as memory is the data space as the core's loads see it, the
loaded bytes too where memory is unified (20_memory.md R71); its stores are not tested against `DMemMap` (R85). -/
def runCoProc (w : Word) (s : State) : State :=
  let answer := Config.openCoProc w s.glbregf (dataSpace s) s.device
  advance { s with glbregf := answer.glbregf, dmem := storeBytes s.dmem answer.stores, device := answer.device }

/-- The execution of a word of the class CoProcessor (47_coprocessor.md R282). CPMI is immediate: the pc still holds the
address of the word (60_exceptions.md R316). -/
def execCoProc (op : BitVec 6) (w : Word) (s : State) : Result :=
  if claimed s.cfg op then
    if s.cfg.coProcExec.contains op then .next (runCoProc w s) else .refused .noCoProcExec
  else if s.statSpcp = false then .fault (.illegalInstruction none)
  else if intEnabled s .cpmi then takeInterrupt .cpmi s
  else .refused .cpmiNotEnabled

end Sys2Proof.Machine
end

