-- ==== Sys2Proof/Machine/BranchJump.lean ====
section
/-! DEFINITION. The branch and jump instructions (44_branch_jump.md). None writes a flag; there is no delay slot (R220, R226). -/

namespace Sys2Proof.Machine

/-- The pc after a branch: the target if the condition holds, `pc + 4` otherwise (44_branch_jump.md R220). -/
def branchIf (cond : Bool) (imm : BitVec 14) (s : State) : Result :=
  .next (if cond then setPc (branchTarget imm s) s else advance s)

/-- `beq $RSa, $RSb, imm14`: branch when RSa and RSb are equal (44_branch_jump.md R222). -/
def execBeq (rsa rsb : RegIx) (imm : BitVec 14) (s : State) : Result :=
  branchIf (readReg rsa s == readReg rsb s) imm s

/-- `bne $RSa, $RSb, imm14`: branch when RSa and RSb are not equal (44_branch_jump.md R223). -/
def execBne (rsa rsb : RegIx) (imm : BitVec 14) (s : State) : Result :=
  branchIf (readReg rsa s != readReg rsb s) imm s

/-- `bgt $RSa, $RSb, imm14`: branch when RSa is greater than RSb (44_branch_jump.md R224). -/
def execBgt (rsa rsb : RegIx) (imm : BitVec 14) (s : State) : Result :=
  branchIf (greater s.cfg (readReg rsa s) (readReg rsb s)) imm s

/-- `blt $RSa, $RSb, imm14`: branch when RSa is less than RSb (44_branch_jump.md R225). -/
def execBlt (rsa rsb : RegIx) (imm : BitVec 14) (s : State) : Result :=
  branchIf (greater s.cfg (readReg rsb s) (readReg rsa s)) imm s

/-- The link: `pc + 4` to $R4 of the active bank, `pc` being the address of the jump (44_branch_jump.md R227). -/
def link (s : State) : State := writeReg linkReg (s.pc + 4) s

/-- `j imm21`: pc relative jump (44_branch_jump.md R228). -/
def execJ (imm : BitVec 21) (s : State) : Result :=
  .next (setPc (jumpTarget imm s) s)

/-- `jal imm21`: pc relative jump, save the return address (44_branch_jump.md R229). -/
def execJal (imm : BitVec 21) (s : State) : Result :=
  .next (setPc (jumpTarget imm s) (link s))

/-- `jr imm21($RSa)`: jump register (44_branch_jump.md R230). -/
def execJr (rsa : RegIx) (imm : BitVec 21) (s : State) : Result :=
  .next (setPc (jumpRegTarget rsa imm s) s)

/-- `jrl imm21($RSa)`: jump register, save the return address; the base is read before the link is written
(44_branch_jump.md R227, R231). -/
def execJrl (rsa : RegIx) (imm : BitVec 21) (s : State) : Result :=
  .next (setPc (jumpRegTarget rsa imm s) (link s))

end Sys2Proof.Machine
end

