-- ==== Sys2Proof/Machine/Immediate.lean ====
section
/-! DEFINITION. The immediate instructions (41_immediate.md). -/

namespace Sys2Proof.Machine

/-- `addi $Rd, $RSa, imm12`: the sum, OV the carry out (41_immediate.md R162). -/
def execAddi (rd rsa : RegIx) (imm : BitVec 12) (s : State) : Result :=
  .next (finishArith rd (readReg rsa s + immArith imm s) (addCarry (readReg rsa s) (immArith imm s)) s)

/-- `subi $Rd, $RSa, imm12`: the difference, OV the borrow (41_immediate.md R163). -/
def execSubi (rd rsa : RegIx) (imm : BitVec 12) (s : State) : Result :=
  .next (finishArith rd (readReg rsa s - immArith imm s) (subBorrow (readReg rsa s) (immArith imm s)) s)

/-- `addui $Rd, $RSa, imm12`: the sum, OV unchanged (41_immediate.md R164). -/
def execAddui (rd rsa : RegIx) (imm : BitVec 12) (s : State) : Result :=
  .next (finishKeepOV rd (readReg rsa s + immArith imm s) s)

/-- `subui $Rd, $RSa, imm12`: the difference, OV unchanged (41_immediate.md R165). -/
def execSubui (rd rsa : RegIx) (imm : BitVec 12) (s : State) : Result :=
  .next (finishKeepOV rd (readReg rsa s - immArith imm s) s)

/-- `noti $Rd, imm12`: the bitwise complement of the immediate; RSa is not read (41_immediate.md R166). -/
def execNoti (rd : RegIx) (imm : BitVec 12) (s : State) : Result :=
  .next (finishFreeOV rd (~~~(immLogic imm s)) s)

/-- `andi $Rd, $RSa, imm12`: bitwise and (41_immediate.md R167). -/
def execAndi (rd rsa : RegIx) (imm : BitVec 12) (s : State) : Result :=
  .next (finishFreeOV rd (readReg rsa s &&& immLogic imm s) s)

/-- `ori $Rd, $RSa, imm12`: bitwise or (41_immediate.md R167). -/
def execOri (rd rsa : RegIx) (imm : BitVec 12) (s : State) : Result :=
  .next (finishFreeOV rd (readReg rsa s ||| immLogic imm s) s)

/-- `xori $Rd, $RSa, imm12`: bitwise exclusive or (41_immediate.md R167). -/
def execXori (rd rsa : RegIx) (imm : BitVec 12) (s : State) : Result :=
  .next (finishFreeOV rd (readReg rsa s ^^^ immLogic imm s) s)

/-- `sali $Rd, $RSa, imm12`: arithmetic shift left by the unsigned immediate (41_immediate.md R168). -/
def execSali (rd rsa : RegIx) (imm : BitVec 12) (s : State) : Result :=
  .next (finishFreeOV rd (shiftResult s.cfg .sal (readReg rsa s) imm.toNat) s)

/-- `sari $Rd, $RSa, imm12`: arithmetic shift right by the unsigned immediate (41_immediate.md R169). -/
def execSari (rd rsa : RegIx) (imm : BitVec 12) (s : State) : Result :=
  .next (finishFreeOV rd (shiftResult s.cfg .sar (readReg rsa s) imm.toNat) s)

/-- `slli $Rd, $RSa, imm12`: logic shift left by the unsigned immediate (41_immediate.md R170). -/
def execSlli (rd rsa : RegIx) (imm : BitVec 12) (s : State) : Result :=
  .next (finishFreeOV rd (shiftResult s.cfg .sll (readReg rsa s) imm.toNat) s)

/-- `slri $Rd, $RSa, imm12`: logic shift right by the unsigned immediate (41_immediate.md R171). -/
def execSlri (rd rsa : RegIx) (imm : BitVec 12) (s : State) : Result :=
  .next (finishFreeOV rd (shiftResult s.cfg .slr (readReg rsa s) imm.toNat) s)

/-- `compi $Rd, $RSa, imm12`: 0, 1 or -1 as RSa is equal to, greater than or less than the immediate (41_immediate.md R172). -/
def execCompi (rd rsa : RegIx) (imm : BitVec 12) (s : State) : Result :=
  .next (finishFreeOV rd (compResult s.cfg (readReg rsa s) (immArith imm s)) s)

end Sys2Proof.Machine
end

