-- ==== Sys2Proof/Machine/Integer.lean ====
section
/-! DEFINITION. The integer (register to register) instructions (40_integer.md). Both sources are read before any write (R140). -/

namespace Sys2Proof.Machine

/-- `add $Rd, $RSa, $RSb`: the sum, OV the carry out (40_integer.md R142). -/
def execAdd (rd rsa rsb : RegIx) (s : State) : Result :=
  .next (finishArith rd (readReg rsa s + readReg rsb s) (addCarry (readReg rsa s) (readReg rsb s)) s)

/-- `sub $Rd, $RSa, $RSb`: the difference, OV the borrow (40_integer.md R143). -/
def execSub (rd rsa rsb : RegIx) (s : State) : Result :=
  .next (finishArith rd (readReg rsa s - readReg rsb s) (subBorrow (readReg rsa s) (readReg rsb s)) s)

/-- `addu $Rd, $RSa, $RSb`: the sum, OV unchanged (40_integer.md R144). -/
def execAddu (rd rsa rsb : RegIx) (s : State) : Result :=
  .next (finishKeepOV rd (readReg rsa s + readReg rsb s) s)

/-- `subu $Rd, $RSa, $RSb`: the difference, OV unchanged (40_integer.md R145). -/
def execSubu (rd rsa rsb : RegIx) (s : State) : Result :=
  .next (finishKeepOV rd (readReg rsa s - readReg rsb s) s)

/-- `not $Rd, $RSa`: the bitwise complement (40_integer.md R146). -/
def execNot (rd rsa : RegIx) (s : State) : Result :=
  .next (finishFreeOV rd (~~~(readReg rsa s)) s)

/-- `and $Rd, $RSa, $RSb`: bitwise and (40_integer.md R147). -/
def execAnd (rd rsa rsb : RegIx) (s : State) : Result :=
  .next (finishFreeOV rd (readReg rsa s &&& readReg rsb s) s)

/-- `or $Rd, $RSa, $RSb`: bitwise or (40_integer.md R147). -/
def execOr (rd rsa rsb : RegIx) (s : State) : Result :=
  .next (finishFreeOV rd (readReg rsa s ||| readReg rsb s) s)

/-- `xor $Rd, $RSa, $RSb`: bitwise exclusive or (40_integer.md R147). -/
def execXor (rd rsa rsb : RegIx) (s : State) : Result :=
  .next (finishFreeOV rd (readReg rsa s ^^^ readReg rsb s) s)

/-- A shift by the whole unsigned value of RSb (40_integer.md R141, R148 to R151); refused where the shft field is not 0
(30_encoding.md R127). -/
def shiftByReg (op : ShiftOp) (rd rsa rsb : RegIx) (shft : BitVec 7) (s : State) : Result :=
  if shft = 0 then .next (finishFreeOV rd (shiftResult s.cfg op (readReg rsa s) (readReg rsb s).toNat) s)
  else .refused (.shiftFieldNotZero shft)

/-- `sal $Rd, $RSa, $RSb`: arithmetic shift left (40_integer.md R148). -/
def execSal (rd rsa rsb : RegIx) (shft : BitVec 7) (s : State) : Result :=
  shiftByReg .sal rd rsa rsb shft s

/-- `sar $Rd, $RSa, $RSb`: arithmetic shift right; copies of bit 31 enter at the top (PRESUMED by the spec, log entry 25) (40_integer.md R149). -/
def execSar (rd rsa rsb : RegIx) (shft : BitVec 7) (s : State) : Result :=
  shiftByReg .sar rd rsa rsb shft s

/-- `sll $Rd, $RSa, $RSb`: logic shift left (40_integer.md R150). -/
def execSll (rd rsa rsb : RegIx) (shft : BitVec 7) (s : State) : Result :=
  shiftByReg .sll rd rsa rsb shft s

/-- `slr $Rd, $RSa, $RSb`: logic shift right (40_integer.md R151). -/
def execSlr (rd rsa rsb : RegIx) (shft : BitVec 7) (s : State) : Result :=
  shiftByReg .slr rd rsa rsb shft s

/-- `comp $Rd, $RSa, $RSb`: 0, 1 or -1 as RSa is equal to, greater than or less than RSb (40_integer.md R152). -/
def execComp (rd rsa rsb : RegIx) (s : State) : Result :=
  .next (finishFreeOV rd (compResult s.cfg (readReg rsa s) (readReg rsb s)) s)

end Sys2Proof.Machine
end

