-- ==== Sys2Proof/Machine/LoadImmediate.lean ====
section
/-! DEFINITION. The load immediate instructions (43_load_immediate.md). Each names its file, whatever bank is active (R200). -/

namespace Sys2Proof.Machine

/-- A load immediate (43_load_immediate.md R200, R201): no flag, no memory, no exception. -/
def loadImm (f : ImmFile) (form : ImmForm) (rd : RegIx) (imm : BitVec 16) (s : State) : Result :=
  .next (advance (writeFile f rd (immValue s.cfg.liMode form (readFile f rd s) imm) s))

/-- `li $Rd, imm16`: GPREGF, lower half, signed (43_load_immediate.md R202). -/
def execLi (rd : RegIx) (imm : BitVec 16) (s : State) : Result :=
  loadImm .gp .lowerSigned rd imm s

/-- `lui $Rd, imm16`: GPREGF, upper half (43_load_immediate.md R203). -/
def execLui (rd : RegIx) (imm : BitVec 16) (s : State) : Result :=
  loadImm .gp .upper rd imm s

/-- `lni $Rd, imm16`: GPREGF, lower half, unsigned (43_load_immediate.md R204). -/
def execLni (rd : RegIx) (imm : BitVec 16) (s : State) : Result :=
  loadImm .gp .lowerUnsigned rd imm s

/-- `luni $Rd, imm16`: GPREGF, upper half, unsigned (43_load_immediate.md R205). -/
def execLuni (rd : RegIx) (imm : BitVec 16) (s : State) : Result :=
  loadImm .gp .upper rd imm s

/-- `lgi $Rd, imm16`: GLBREGF, lower half, signed (43_load_immediate.md R206). -/
def execLgi (rd : RegIx) (imm : BitVec 16) (s : State) : Result :=
  loadImm .glb .lowerSigned rd imm s

/-- `lugi $Rd, imm16`: GLBREGF, upper half (43_load_immediate.md R207). -/
def execLugi (rd : RegIx) (imm : BitVec 16) (s : State) : Result :=
  loadImm .glb .upper rd imm s

/-- `lngi $Rd, imm16`: GLBREGF, lower half, unsigned (43_load_immediate.md R208). -/
def execLngi (rd : RegIx) (imm : BitVec 16) (s : State) : Result :=
  loadImm .glb .lowerUnsigned rd imm s

/-- `lungi $Rd, imm16`: GLBREGF, upper half, unsigned (43_load_immediate.md R209). -/
def execLungi (rd : RegIx) (imm : BitVec 16) (s : State) : Result :=
  loadImm .glb .upper rd imm s

/-- `lsi $Rd, imm16`: SYSREGF, lower half, signed (43_load_immediate.md R210). -/
def execLsi (rd : RegIx) (imm : BitVec 16) (s : State) : Result :=
  loadImm .sys .lowerSigned rd imm s

/-- `lusi $Rd, imm16`: SYSREGF, upper half (43_load_immediate.md R211). -/
def execLusi (rd : RegIx) (imm : BitVec 16) (s : State) : Result :=
  loadImm .sys .upper rd imm s

/-- `lnsi $Rd, imm16`: SYSREGF, lower half, unsigned (43_load_immediate.md R212). -/
def execLnsi (rd : RegIx) (imm : BitVec 16) (s : State) : Result :=
  loadImm .sys .lowerUnsigned rd imm s

/-- `lunsi $Rd, imm16`: SYSREGF, upper half, unsigned (43_load_immediate.md R213). -/
def execLunsi (rd : RegIx) (imm : BitVec 16) (s : State) : Result :=
  loadImm .sys .upper rd imm s

end Sys2Proof.Machine
end

