-- ==== Sys2Proof/Machine/LoadStore.lean ====
section
/-! DEFINITION. The load and store instructions (42_load_store.md). -/

namespace Sys2Proof.Machine

/-- A load of `n` bytes, in the order of events of 42_load_store.md R181: the address, the alignment test, the memory map, the
read, Rd, the pc. A byte nothing has written is a free draw (log entry 7); a byte in a device's window is the device's answer
(log entry 33). -/
def loadFrom (n : Nat) (rd rsa : RegIx) (imm : BitVec 14) (s : State) : Result :=
  let a := effAddr rsa imm s
  if misaligned s.cfg a n then raise .misaddr s
  else if allMapped s.cfg.dataMap a n then
    .next (advance { writeReg rd (readAccess s a n).1 s with draws := s.draws + 1, device := (readAccess s a n).2 })
  else .fault (.stuckData a)

/-- A store of the low `n` bytes of RSb, in the order of events of 42_load_store.md R181. -/
def storeTo (n : Nat) (rsb rsa : RegIx) (imm : BitVec 14) (s : State) : Result :=
  let a := effAddr rsa imm s
  if misaligned s.cfg a n then raise .misaddr s
  else if allMapped s.cfg.dataMap a n then
    let left := writeAccess s a n (readReg rsb s)
    .next (advance { s with dmem := left.1, device := left.2 })
  else .fault (.stuckData a)

/-- `lw $Rd, imm14($RSa)`: 4 bytes (42_load_store.md R183). -/
def execLw (rd rsa : RegIx) (imm : BitVec 14) (s : State) : Result :=
  loadFrom 4 rd rsa imm s

/-- `lh $Rd, imm14($RSa)`: 2 bytes, zero-extended (42_load_store.md R184). -/
def execLh (rd rsa : RegIx) (imm : BitVec 14) (s : State) : Result :=
  loadFrom 2 rd rsa imm s

/-- `lth $Rd, imm14($RSa)`: 3 bytes, zero-extended (42_load_store.md R185). -/
def execLth (rd rsa : RegIx) (imm : BitVec 14) (s : State) : Result :=
  loadFrom 3 rd rsa imm s

/-- `lb $Rd, imm14($RSa)`: 1 byte, zero-extended (42_load_store.md R186). -/
def execLb (rd rsa : RegIx) (imm : BitVec 14) (s : State) : Result :=
  loadFrom 1 rd rsa imm s

/-- `sw $RSb, imm14($RSa)`: 4 bytes of RSb (42_load_store.md R187). -/
def execSw (rsb rsa : RegIx) (imm : BitVec 14) (s : State) : Result :=
  storeTo 4 rsb rsa imm s

/-- `sh $RSb, imm14($RSa)`: the lower 2 bytes of RSb (42_load_store.md R188). -/
def execSh (rsb rsa : RegIx) (imm : BitVec 14) (s : State) : Result :=
  storeTo 2 rsb rsa imm s

/-- `sth $RSb, imm14($RSa)`: the lower 3 bytes of RSb (42_load_store.md R189). -/
def execSth (rsb rsa : RegIx) (imm : BitVec 14) (s : State) : Result :=
  storeTo 3 rsb rsa imm s

/-- `sb $RSb, imm14($RSa)`: the least significant byte of RSb (42_load_store.md R190). -/
def execSb (rsb rsa : RegIx) (imm : BitVec 14) (s : State) : Result :=
  storeTo 1 rsb rsa imm s

end Sys2Proof.Machine
end

