-- ==== Sys2Proof/Machine/Spr.lean ====
section
/-! DEFINITION. The special purpose registers: their addresses, widths, fields and permission levels (10_state.md R40 to R61). -/

namespace Sys2Proof.Machine

/-- The special purpose registers (10_state.md R41, R58). -/
inductive Spr where
  | cpurev
  | cpnum
  | stat
  | opcarp
  | cpidtp
  | uinten
  | rptinfo
  | rpid
  | supv (r : SupvReg)
  deriving DecidableEq, Repr

/-- The system register whose first address is this one (10_state.md R41). -/
def systemSpr (a : Byte) : Option Spr :=
  match a with
  | 0x00#8 => some .cpurev
  | 0x01#8 => some .cpnum
  | 0x02#8 => some .stat
  | 0x04#8 => some .opcarp
  | 0x08#8 => some .cpidtp
  | 0x0c#8 => some .uinten
  | 0x10#8 => some .rptinfo
  | 0x14#8 => some .rpid
  | _ => none

/-- The Figure 3 address of a supervisor register (10_state.md R58). -/
def supvOffset : SupvReg → Nat
  | .smstat => 0x00
  | .rpcpr0 => 0x04
  | .rpitp => 0x08
  | .htinfop => 0x0c
  | .htctlp => 0x10
  | .ecode => 0x14
  | .sysctp => 0x15

/-- The supervisor register that answers at this address: `SUPV_SPR_BASE + a` for Figure 3 address `a` (10_state.md R58);
none where no base is given or the register is not implemented. -/
def supervisorSpr (c : Config) (a : Byte) : Option Spr :=
  match c.supvSprBase with
  | none => none
  | some base => (c.supervisorRegs.find? fun r => base.toNat + supvOffset r == a.toNat).map .supv

/-- The register an SPR address names. 0x03, RESERVED, names none whatever the base (10_state.md R57; 45_system.md R246, R247,
R249). DESIGN CHOICE, log entry 21: where a base brings a supervisor register to a system register's own address the system
register answers; where it brings one to an address inside a multi-byte system register (base 0x01 puts RPCPR0 at 0x05) the
supervisor register answers, as 10_state.md R58 says, although U4 and R247 refuse such an address. -/
def sprAt (c : Config) (a : Byte) : Option Spr :=
  if a = 0x03 then none
  else
    match systemSpr a with
    | some r => some r
    | none => supervisorSpr c a

/-- The registers no `stspr` can write (45_system.md R248). -/
def hardCoded (c : Config) : Spr → Bool
  | .cpurev => true
  | .cpnum => true
  | .opcarp => c.opcarpHardcoded
  | .cpidtp => c.cpidtpHardcoded
  | _ => false

/-- The lowest level that may write a register (45_system.md R246). The two hard-coded ones are refused before. -/
def writeLevel : Spr → Nat
  | .cpurev => 0
  | .cpnum => 0
  | .stat => 2
  | .uinten => 2
  | .opcarp => 3
  | .cpidtp => 4
  | .rptinfo => 3
  | .rpid => 3
  | .supv _ => 2

/-- The lowest level that may read a register (45_system.md R249). -/
def readLevel : Spr → Nat
  | .opcarp => 3
  | _ => 0

/-- A flag of STAT as it reads: `any` is drawn at the read (45_system.md R249; log entry 6). -/
def flagBit (draws : Nat) (name : StatFlag) : Flag → Bool
  | .known b => b
  | .any => Config.freeFlag draws name

/-- The value of STAT: `Z ++ OV ++ PEMA ++ PML ++ GINE ++ SPCP` (45_system.md R249; 10_state.md R44). -/
def statValue (s : State) : Byte :=
  BitVec.ofBool (flagBit s.draws .z s.statZ) ++ BitVec.ofBool (flagBit s.draws .ov s.statOV)
    ++ BitVec.ofBool (flagBit s.draws .pema (pema s)) ++ level s
    ++ BitVec.ofBool s.statGine ++ BitVec.ofBool s.statSpcp

/-- UINTEN with its NA bit, bit 15, forced to 0 (10_state.md R54). -/
def clearNaBit (v : Word) : Word := v &&& 0xFFFF7FFF

/-- The value of a register, zero-extended to 32 bits (45_system.md R249). -/
def readSpr (r : Spr) (s : State) : Word :=
  match r with
  | .cpurev => s.cfg.cpurev.setWidth 32
  | .cpnum => s.cfg.cpnum.setWidth 32
  | .stat => (statValue s).setWidth 32
  | .opcarp => s.opcarp
  | .cpidtp => s.cpidtp
  | .uinten => clearNaBit s.uinten
  | .rptinfo => s.rptinfo
  | .rpid => s.rpid.setWidth 32
  | .supv .smstat => s.smstat
  | .supv .rpcpr0 => s.rpcpr0
  | .supv .rpitp => s.rpitp
  | .supv .htinfop => s.htinfop
  | .supv .htctlp => s.htctlp
  | .supv .ecode => s.ecode.setWidth 32
  | .supv .sysctp => s.sysctp

/-- A register receives a value: a narrow register takes the low bits, STAT only GINE and SPCP (45_system.md R246;
10_state.md R49). The two hard-coded registers keep theirs. -/
def writeSpr (r : Spr) (v : Word) (s : State) : State :=
  match r with
  | .cpurev => s
  | .cpnum => s
  | .stat => { s with statGine := v.getLsbD 1, statSpcp := v.getLsbD 0 }
  | .opcarp => { s with opcarp := v }
  | .cpidtp => { s with cpidtp := v }
  | .uinten => { s with uinten := clearNaBit v }
  | .rptinfo => { s with rptinfo := v }
  | .rpid => { s with rpid := v.setWidth 16 }
  | .supv .smstat => { s with smstat := v }
  | .supv .rpcpr0 => { s with rpcpr0 := v }
  | .supv .rpitp => { s with rpitp := v }
  | .supv .htinfop => { s with htinfop := v }
  | .supv .htctlp => { s with htctlp := v }
  | .supv .ecode => { s with ecode := v.setWidth 8 }
  | .supv .sysctp => { s with sysctp := v }

/-! ## Named fields -/

/-- CPUREV[7:4], "Major CPU Revision" (10_state.md R42). -/
def cpurevMajor (v : Byte) : BitVec 4 := v.extractLsb' 4 4

/-- CPUREV[3:0], "Minor CPU Revision" (10_state.md R42). -/
def cpurevMinor (v : Byte) : BitVec 4 := v.extractLsb' 0 4

/-- RPTINFO[31:16], PPID, "Parent Process ID" (10_state.md R55). -/
def rptinfoPpid (v : Word) : BitVec 16 := v.extractLsb' 16 16

/-- RPTINFO[15:8], CHPID, "Child Process ID" (10_state.md R55). -/
def rptinfoChpid (v : Word) : Byte := v.extractLsb' 8 8

/-- RPTINFO[7:0], RESERVED, stored as written (10_state.md R55). -/
def rptinfoReserved (v : Word) : Byte := v.extractLsb' 0 8

end Sys2Proof.Machine
end

