-- ==== Sys2Proof/Machine/System.lean ====
section
/-! DEFINITION. The system instructions (45_system.md). None writes Z or OV (R240). -/

namespace Sys2Proof.Machine

/-! ## System call and return -/

/-- `SysCallTable(SYSCTP, n)`: the known answer, or an open one (45_system.md R241; log entry 16). -/
def sysCallLookup (rows : List SysCallRow) (sysctp : Word) (n : Byte) : Option SysCallEntry :=
  match rows.find? fun r => r.sysctp == sysctp && r.number == n with
  | some r => r.entry
  | none => Config.openSysCall sysctp n

/-- `syscall n` (45_system.md R242), its tests in the rule's order. A level that is not adequate clears PEMA and raises
INSFPEM; the permission test always passes where the levels are not implemented. -/
def execSyscall (n : Byte) (s : State) : Result :=
  match s.cfg.sysCallTable with
  | none => .refused .noSysCallTable
  | some rows =>
    if s.bank = .sys then .refused .nestedSysCall
    else if s.sysctp = 0 then raise .invsys s
    else
      match sysCallLookup rows s.sysctp n with
      | none => raise .invsys s
      | some e =>
        if (level s).toNat < e.minPml.code.toNat then raise .insfpem (setPema false s)
        else .next (enterSysCall e s)

/-- `sysret` (45_system.md R244). -/
def execSysret (s : State) : Result :=
  if s.bank = .sys then .next (returnFromSysCall s) else .refused .noSysCallOutstanding

/-! ## Special purpose registers -/

/-- `stspr $RSa, SPR` (45_system.md R246): an address that names no register is refused (R247), a hard-coded register is
refused at every level (R248), too low a level raises INSFPEM. -/
def execStspr (rsa : RegIx) (a : Byte) (s : State) : Result :=
  match sprAt s.cfg a with
  | none => .refused (.noSuchSpr a)
  | some r =>
    if hardCoded s.cfg r then .refused (.hardCodedSpr a)
    else if (level s).toNat < writeLevel r then raise .insfpem s
    else .next (advance (writeSpr r (readReg rsa s) s))

/-- `ldspr $Rd, SPR` (45_system.md R249). A flag of STAT that holds `any` is drawn here. -/
def execLdspr (rd : RegIx) (a : Byte) (s : State) : Result :=
  match sprAt s.cfg a with
  | none => .refused (.noSuchSpr a)
  | some r =>
    if (level s).toNat < readLevel r then raise .insfpem s
    else .next (advance { writeReg rd (readSpr r s) s with draws := s.draws + 1 })

/-! ## Synchronisation -/

/-- `sync`: in the single-agent, in-order model only the pc changes (45_system.md R250). -/
def execSync (s : State) : Result := .next (advance s)

/-- `Resource.lock(s, addr)`: the known answer, or an open one: the code and the next resource state (45_system.md R251;
log entry 17). -/
def lockAnswer (r : Resource) (st : Nat) (a : Word) : Word × Nat :=
  match r.locks.find? fun row => row.state == st && row.address == a with
  | some row => (row.code, row.next)
  | none => Config.openLock st a

/-- `Resource.test(s, addr)`: the known answer, or an open one (45_system.md R251; log entry 17). -/
def testAnswer (r : Resource) (st : Nat) (a : Word) : Word :=
  match r.tests.find? fun row => row.state == st && row.address == a with
  | some row => row.code
  | none => Config.openTest st a

/-- `lock $RSa`: the resource is asked for its lock; rd, which an assembler writes 0, receives the code
(45_system.md R252). -/
def execLock (rd rsa : RegIx) (s : State) : Result :=
  match s.cfg.resource with
  | none => .refused .noResource
  | some r =>
    let answer := lockAnswer r s.resource (readReg rsa s)
    .next (advance { writeReg rd answer.1 s with resource := answer.2 })

/-- `test $Rd, $RSa`: rd receives the code; the resource state is not changed (45_system.md R254). -/
def execTest (rd rsa : RegIx) (s : State) : Result :=
  match s.cfg.resource with
  | none => .refused .noResource
  | some r => .next (advance (writeReg rd (testAnswer r s.resource (readReg rsa s)) s))

/-! ## Permission level changes -/

/-- The target of a pmir or pmd is valid when it is at most 7, not 6, and at most MAXPML (45_system.md R255). -/
def validLevel (c : Config) (t : Byte) : Bool :=
  decide (t.toNat ≤ 7) && decide (t.toNat ≠ 6) && decide (t.toNat ≤ c.maxPml.code.toNat)

/-- `pmir t` (45_system.md R256). With no `PmirPolicy` given the grant is a free choice per request (log entry 18). -/
def execPmir (t : Byte) (s : State) : Result :=
  if s.cfg.pmlImplemented = false then .next (advance s)
  else if validLevel s.cfg t = false ∨ t.toNat < s.statPml.toNat then raise .invpr s
  else if t.toNat = s.statPml.toNat then .next (advance s)
  else
    match s.cfg.pmirPolicy with
    | some grants =>
      if grants.contains (s.statPml, t.setWidth 3) then .next (advance (setLevel (t.setWidth 3) s))
      else raise .invpr s
    | none =>
      if Config.freeGrant s.draws s.statPml (t.setWidth 3) then
        .next (advance { setLevel (t.setWidth 3) s with draws := s.draws + 1 })
      else raise .invpr { s with draws := s.draws + 1 }

/-- `pmd t`: a decrease is always granted (45_system.md R258). -/
def execPmd (t : Byte) (s : State) : Result :=
  if s.cfg.pmlImplemented = false then .next (advance s)
  else if validLevel s.cfg t = false ∨ s.statPml.toNat < t.toNat then raise .invpr s
  else .next (advance (setLevel (t.setWidth 3) s))

end Sys2Proof.Machine
end

