-- ==== Sys2Proof/Machine/Dispatch.lean ====
section
/-! DEFINITION. exec: one arm per instruction, each a call of its meaning. -/

namespace Sys2Proof.Machine

def exec (i : Instr) (s : State) : Host.Outcome State Fault Refusal :=
  match i with
  | .add rd rsa rsb => Sys2Proof.Machine.execAdd rd rsa rsb s
  | .sub rd rsa rsb => Sys2Proof.Machine.execSub rd rsa rsb s
  | .addu rd rsa rsb => Sys2Proof.Machine.execAddu rd rsa rsb s
  | .subu rd rsa rsb => Sys2Proof.Machine.execSubu rd rsa rsb s
  | .not rd rsa => Sys2Proof.Machine.execNot rd rsa s
  | .and rd rsa rsb => Sys2Proof.Machine.execAnd rd rsa rsb s
  | .or rd rsa rsb => Sys2Proof.Machine.execOr rd rsa rsb s
  | .xor rd rsa rsb => Sys2Proof.Machine.execXor rd rsa rsb s
  | .sal rd rsa rsb shft => Sys2Proof.Machine.execSal rd rsa rsb shft s
  | .sar rd rsa rsb shft => Sys2Proof.Machine.execSar rd rsa rsb shft s
  | .sll rd rsa rsb shft => Sys2Proof.Machine.execSll rd rsa rsb shft s
  | .slr rd rsa rsb shft => Sys2Proof.Machine.execSlr rd rsa rsb shft s
  | .comp rd rsa rsb => Sys2Proof.Machine.execComp rd rsa rsb s
  | .addi rd rsa imm => Sys2Proof.Machine.execAddi rd rsa imm s
  | .subi rd rsa imm => Sys2Proof.Machine.execSubi rd rsa imm s
  | .addui rd rsa imm => Sys2Proof.Machine.execAddui rd rsa imm s
  | .subui rd rsa imm => Sys2Proof.Machine.execSubui rd rsa imm s
  | .noti rd imm => Sys2Proof.Machine.execNoti rd imm s
  | .andi rd rsa imm => Sys2Proof.Machine.execAndi rd rsa imm s
  | .ori rd rsa imm => Sys2Proof.Machine.execOri rd rsa imm s
  | .xori rd rsa imm => Sys2Proof.Machine.execXori rd rsa imm s
  | .sali rd rsa imm => Sys2Proof.Machine.execSali rd rsa imm s
  | .sari rd rsa imm => Sys2Proof.Machine.execSari rd rsa imm s
  | .slli rd rsa imm => Sys2Proof.Machine.execSlli rd rsa imm s
  | .slri rd rsa imm => Sys2Proof.Machine.execSlri rd rsa imm s
  | .compi rd rsa imm => Sys2Proof.Machine.execCompi rd rsa imm s
  | .lw rd rsa imm => Sys2Proof.Machine.execLw rd rsa imm s
  | .lh rd rsa imm => Sys2Proof.Machine.execLh rd rsa imm s
  | .lth rd rsa imm => Sys2Proof.Machine.execLth rd rsa imm s
  | .lb rd rsa imm => Sys2Proof.Machine.execLb rd rsa imm s
  | .sw rsb rsa imm => Sys2Proof.Machine.execSw rsb rsa imm s
  | .sh rsb rsa imm => Sys2Proof.Machine.execSh rsb rsa imm s
  | .sth rsb rsa imm => Sys2Proof.Machine.execSth rsb rsa imm s
  | .sb rsb rsa imm => Sys2Proof.Machine.execSb rsb rsa imm s
  | .li rd imm => Sys2Proof.Machine.execLi rd imm s
  | .lsi rd imm => Sys2Proof.Machine.execLsi rd imm s
  | .lgi rd imm => Sys2Proof.Machine.execLgi rd imm s
  | .lui rd imm => Sys2Proof.Machine.execLui rd imm s
  | .lusi rd imm => Sys2Proof.Machine.execLusi rd imm s
  | .lugi rd imm => Sys2Proof.Machine.execLugi rd imm s
  | .lni rd imm => Sys2Proof.Machine.execLni rd imm s
  | .lnsi rd imm => Sys2Proof.Machine.execLnsi rd imm s
  | .lngi rd imm => Sys2Proof.Machine.execLngi rd imm s
  | .luni rd imm => Sys2Proof.Machine.execLuni rd imm s
  | .lunsi rd imm => Sys2Proof.Machine.execLunsi rd imm s
  | .lungi rd imm => Sys2Proof.Machine.execLungi rd imm s
  | .beq rsa rsb imm => Sys2Proof.Machine.execBeq rsa rsb imm s
  | .bne rsa rsb imm => Sys2Proof.Machine.execBne rsa rsb imm s
  | .bgt rsa rsb imm => Sys2Proof.Machine.execBgt rsa rsb imm s
  | .blt rsa rsb imm => Sys2Proof.Machine.execBlt rsa rsb imm s
  | .j imm => Sys2Proof.Machine.execJ imm s
  | .jal imm => Sys2Proof.Machine.execJal imm s
  | .jr rsa imm => Sys2Proof.Machine.execJr rsa imm s
  | .jrl rsa imm => Sys2Proof.Machine.execJrl rsa imm s
  | .syscall number => Sys2Proof.Machine.execSyscall number s
  | .sysret => Sys2Proof.Machine.execSysret s
  | .stspr rsa spr => Sys2Proof.Machine.execStspr rsa spr s
  | .ldspr rd spr => Sys2Proof.Machine.execLdspr rd spr s
  | .sync => Sys2Proof.Machine.execSync s
  | .lock rd rsa => Sys2Proof.Machine.execLock rd rsa s
  | .test rd rsa => Sys2Proof.Machine.execTest rd rsa s
  | .pmir level => Sys2Proof.Machine.execPmir level s
  | .pmd level => Sys2Proof.Machine.execPmd level s

end Sys2Proof.Machine
end

