-- ==== Sys2Proof/Machine/Fetch.lean ====
section
/-! DEFINITION. The beginning of a step: the recognition of a pending interrupt (60_exceptions.md R312, R318) and the fetch of
an instruction word (20_memory.md R75, R80, R85, R90). -/

namespace Sys2Proof.Machine

/-- The interrupts that are pending and enabled: ROI and the extra vectors (60_exceptions.md R312). -/
def recognisable (s : State) : List IntVec :=
  let waiting := (if s.roiPending then [IntVec.roi] else [])
    ++ (s.cfg.extraVectors.filter fun v => s.extraPending.contains v.address).map IntVec.extra
  waiting.filter fun v => intEnabled s v

/-- The interrupt of the lowest vector address (60_exceptions.md R318). -/
def lowestVector : List IntVec → Option IntVec
  | [] => none
  | v :: rest =>
    match lowestVector rest with
    | none => some v
    | some u => if (vectorAddress u).toNat < (vectorAddress v).toNat then some u else some v

/-- The interrupt the step recognises, if any (60_exceptions.md R312, R318). -/
def recognised (s : State) : Option IntVec := lowestVector (recognisable s)

/-- The pc is a multiple of 4 (20_memory.md R80). -/
def pcAligned (pc : Word) : Bool := pc.extractLsb' 0 2 == 0

/-- What fetching gives: the four bytes, or why there are none. -/
inductive Fetched where
  | bytes (b0 b1 b2 b3 : Byte)
  | stuck (address : Word)
  | fromStored (address : Word)
  | notLoaded (address : Word)
  deriving DecidableEq, Repr

/-- In a unified memory, the program has stored to one of the four bytes, be it memory or in a device's window (20_memory.md R90;
log entry 23). -/
def storedToCode (s : State) (a : Word) : Bool :=
  s.cfg.unifiedMemory &&
    ((memRead s.dmem a.toNat).isSome || (memRead s.dmem (a + 1).toNat).isSome
      || (memRead s.dmem (a + 2).toNat).isSome || (memRead s.dmem (a + 3).toNat).isSome)

/-- `IFetch(a)` (20_memory.md R75): the four bytes of the instruction space at `a`. Outside `IMemMap` there is no step (R85);
bytes nothing has loaded have no value (log entry 8). -/
def fetchBytes (s : State) (a : Word) : Fetched :=
  if allMapped s.cfg.iMemMap a 4 = false then .stuck a
  else if storedToCode s a then .fromStored a
  else
    match memRead s.imem a.toNat, memRead s.imem (a + 1).toNat, memRead s.imem (a + 2).toNat,
      memRead s.imem (a + 3).toNat with
    | some b0, some b1, some b2, some b3 => .bytes b0 b1 b2 b3
    | _, _, _, _ => .notLoaded a

/-- The instruction space with these bytes placed from `a` on, the lowest address first. -/
def placeBytes (m : Memory) (a : Word) : List Byte → Memory
  | [] => m
  | b :: rest => placeBytes (memWrite m a.toNat b) (a + 1) rest

/-- The state with an instruction word loaded where the next step fetches (20_memory.md R74, R75; log entry 10). -/
def loadWordAtPc (w : Word) (s : State) : State :=
  { s with imem := placeBytes s.imem s.pc (bytesOfWord w) }

end Sys2Proof.Machine
end

