-- ==== Sys2Proof/Machine/Cycle.lean ====
section
/-! DEFINITION. The order of a step (00_scope.md R11, 60_exceptions.md R318): a pending enabled interrupt, the alignment of the
pc, the fetch, the decode, the instruction. -/

namespace Sys2Proof.Machine

/-- Perform what a word decodes to (30_encoding.md R120, R125). -/
def perform (d : Decoded) (s : State) : Result :=
  match d with
  | .instr i => exec i s
  | .coProcessor op w => execCoProc op w s
  | .illegal why => .fault (.illegalInstruction (some why))

/-- Fetch, decode and perform the instruction at the pc. -/
def fetchAndPerform (s : State) : Result :=
  match fetchBytes s s.pc with
  | .stuck a => .fault (.stuckFetch a)
  | .fromStored a => .refused (.fetchFromStored a)
  | .notLoaded a => .fault (.fetchNotLoaded a)
  | .bytes b0 b1 b2 b3 => perform (decodeBytes s.cfg.opMap [b0, b1, b2, b3]) s

/-- One step of the core (00_scope.md R11). -/
def cycle (s : State) : Result :=
  match recognised s with
  | some v => takeInterrupt v s
  | none => if pcAligned s.pc then fetchAndPerform s else raise .misaddr s

end Sys2Proof.Machine
end

