-- ==== Sys2Proof/Machine/Assembly.lean ====
section
/-! DEFINITION. The operand forms of the assembly language (30_encoding.md R130, R131): the mnemonic and the operands in the
order they are written. The text form of a number is not the source's to give and is left out. -/

namespace Sys2Proof.Machine

/-- An operand of an assembly line (30_encoding.md R130). -/
inductive AsmOperand where
  /-- `$R<i>`. -/
  | reg (i : RegIx)
  /-- An immediate of so many bits, a hexadecimal literal. -/
  | imm (width : Nat) (v : Nat)
  /-- `imm($R<i>)`. -/
  | based (width : Nat) (v : Nat) (base : RegIx)
  /-- A special purpose register, named by its address. -/
  | spr (a : Byte)
  deriving DecidableEq, Repr

/-- An assembly line: mnemonic and operands (30_encoding.md R130). -/
structure AsmLine where
  mnemonic : String
  operands : List AsmOperand
  deriving DecidableEq, Repr

/-- The assembly line of an instruction (30_encoding.md R130, R131): Rd first in a computing instruction, the data register
first in a store, RSa, RSb, offset in a branch, the source register first in `stspr`. `lock` has no Rd in its usage. -/
def asmLine : Instr → AsmLine
  | .add rd rsa rsb => ⟨"add", [.reg rd, .reg rsa, .reg rsb]⟩
  | .sub rd rsa rsb => ⟨"sub", [.reg rd, .reg rsa, .reg rsb]⟩
  | .addu rd rsa rsb => ⟨"addu", [.reg rd, .reg rsa, .reg rsb]⟩
  | .subu rd rsa rsb => ⟨"subu", [.reg rd, .reg rsa, .reg rsb]⟩
  | .not rd rsa => ⟨"not", [.reg rd, .reg rsa]⟩
  | .and rd rsa rsb => ⟨"and", [.reg rd, .reg rsa, .reg rsb]⟩
  | .or rd rsa rsb => ⟨"or", [.reg rd, .reg rsa, .reg rsb]⟩
  | .xor rd rsa rsb => ⟨"xor", [.reg rd, .reg rsa, .reg rsb]⟩
  | .sal rd rsa rsb _ => ⟨"sal", [.reg rd, .reg rsa, .reg rsb]⟩
  | .sar rd rsa rsb _ => ⟨"sar", [.reg rd, .reg rsa, .reg rsb]⟩
  | .sll rd rsa rsb _ => ⟨"sll", [.reg rd, .reg rsa, .reg rsb]⟩
  | .slr rd rsa rsb _ => ⟨"slr", [.reg rd, .reg rsa, .reg rsb]⟩
  | .comp rd rsa rsb => ⟨"comp", [.reg rd, .reg rsa, .reg rsb]⟩
  | .addi rd rsa imm => ⟨"addi", [.reg rd, .reg rsa, .imm 12 imm.toNat]⟩
  | .subi rd rsa imm => ⟨"subi", [.reg rd, .reg rsa, .imm 12 imm.toNat]⟩
  | .addui rd rsa imm => ⟨"addui", [.reg rd, .reg rsa, .imm 12 imm.toNat]⟩
  | .subui rd rsa imm => ⟨"subui", [.reg rd, .reg rsa, .imm 12 imm.toNat]⟩
  | .noti rd imm => ⟨"noti", [.reg rd, .imm 12 imm.toNat]⟩
  | .andi rd rsa imm => ⟨"andi", [.reg rd, .reg rsa, .imm 12 imm.toNat]⟩
  | .ori rd rsa imm => ⟨"ori", [.reg rd, .reg rsa, .imm 12 imm.toNat]⟩
  | .xori rd rsa imm => ⟨"xori", [.reg rd, .reg rsa, .imm 12 imm.toNat]⟩
  | .sali rd rsa imm => ⟨"sali", [.reg rd, .reg rsa, .imm 12 imm.toNat]⟩
  | .sari rd rsa imm => ⟨"sari", [.reg rd, .reg rsa, .imm 12 imm.toNat]⟩
  | .slli rd rsa imm => ⟨"slli", [.reg rd, .reg rsa, .imm 12 imm.toNat]⟩
  | .slri rd rsa imm => ⟨"slri", [.reg rd, .reg rsa, .imm 12 imm.toNat]⟩
  | .compi rd rsa imm => ⟨"compi", [.reg rd, .reg rsa, .imm 12 imm.toNat]⟩
  | .lw rd rsa imm => ⟨"lw", [.reg rd, .based 14 imm.toNat rsa]⟩
  | .lh rd rsa imm => ⟨"lh", [.reg rd, .based 14 imm.toNat rsa]⟩
  | .lth rd rsa imm => ⟨"lth", [.reg rd, .based 14 imm.toNat rsa]⟩
  | .lb rd rsa imm => ⟨"lb", [.reg rd, .based 14 imm.toNat rsa]⟩
  | .sw rsb rsa imm => ⟨"sw", [.reg rsb, .based 14 imm.toNat rsa]⟩
  | .sh rsb rsa imm => ⟨"sh", [.reg rsb, .based 14 imm.toNat rsa]⟩
  | .sth rsb rsa imm => ⟨"sth", [.reg rsb, .based 14 imm.toNat rsa]⟩
  | .sb rsb rsa imm => ⟨"sb", [.reg rsb, .based 14 imm.toNat rsa]⟩
  | .li rd imm => ⟨"li", [.reg rd, .imm 16 imm.toNat]⟩
  | .lsi rd imm => ⟨"lsi", [.reg rd, .imm 16 imm.toNat]⟩
  | .lgi rd imm => ⟨"lgi", [.reg rd, .imm 16 imm.toNat]⟩
  | .lui rd imm => ⟨"lui", [.reg rd, .imm 16 imm.toNat]⟩
  | .lusi rd imm => ⟨"lusi", [.reg rd, .imm 16 imm.toNat]⟩
  | .lugi rd imm => ⟨"lugi", [.reg rd, .imm 16 imm.toNat]⟩
  | .lni rd imm => ⟨"lni", [.reg rd, .imm 16 imm.toNat]⟩
  | .lnsi rd imm => ⟨"lnsi", [.reg rd, .imm 16 imm.toNat]⟩
  | .lngi rd imm => ⟨"lngi", [.reg rd, .imm 16 imm.toNat]⟩
  | .luni rd imm => ⟨"luni", [.reg rd, .imm 16 imm.toNat]⟩
  | .lunsi rd imm => ⟨"lunsi", [.reg rd, .imm 16 imm.toNat]⟩
  | .lungi rd imm => ⟨"lungi", [.reg rd, .imm 16 imm.toNat]⟩
  | .beq rsa rsb imm => ⟨"beq", [.reg rsa, .reg rsb, .imm 14 imm.toNat]⟩
  | .bne rsa rsb imm => ⟨"bne", [.reg rsa, .reg rsb, .imm 14 imm.toNat]⟩
  | .bgt rsa rsb imm => ⟨"bgt", [.reg rsa, .reg rsb, .imm 14 imm.toNat]⟩
  | .blt rsa rsb imm => ⟨"blt", [.reg rsa, .reg rsb, .imm 14 imm.toNat]⟩
  | .j imm => ⟨"j", [.imm 21 imm.toNat]⟩
  | .jal imm => ⟨"jal", [.imm 21 imm.toNat]⟩
  | .jr rsa imm => ⟨"jr", [.based 21 imm.toNat rsa]⟩
  | .jrl rsa imm => ⟨"jrl", [.based 21 imm.toNat rsa]⟩
  | .syscall n => ⟨"syscall", [.imm 8 n.toNat]⟩
  | .sysret => ⟨"sysret", []⟩
  | .stspr rsa a => ⟨"stspr", [.reg rsa, .spr a]⟩
  | .ldspr rd a => ⟨"ldspr", [.reg rd, .spr a]⟩
  | .sync => ⟨"sync", []⟩
  | .lock _ rsa => ⟨"lock", [.reg rsa]⟩
  | .test rd rsa => ⟨"test", [.reg rd, .reg rsa]⟩
  | .pmir n => ⟨"pmir", [.imm 8 n.toNat]⟩
  | .pmd n => ⟨"pmd", [.imm 8 n.toNat]⟩

end Sys2Proof.Machine
end

