-- ==== Sys2Proof/Machine/Macros.lean ====
section
/-! DEFINITION. The three assembler pseudo-instructions and their expansions (46_macros.md R270 to R272). The hardware sees
only the expansion. -/

namespace Sys2Proof.Machine

/-- `hi16(A)`: bits 31:16 (46_macros.md). -/
def hi16 (a : Word) : BitVec 16 := a.extractLsb' 16 16

/-- `lo16(A)`: bits 15:0 (46_macros.md). -/
def lo16 (a : Word) : BitVec 16 := a.extractLsb' 0 16

/-- TMP0, $R22 (10_state.md R26). -/
def tmp0Reg : RegIx := 22

/-- `call address_label` (46_macros.md R270): the immediate has `lo16` in bits 15:0 and zeros above. -/
def expandCall (a : Word) : List Instr := [.lui tmp0Reg (hi16 a), .jrl tmp0Reg ((lo16 a).setWidth 21)]

/-- `ret` (46_macros.md R271): `jr 0($R4)`. -/
def expandRet : List Instr := [.jr 4 0]

/-- `la $Rd, address_label` (46_macros.md R272): li, then lui. -/
def expandLa (rd : RegIx) (a : Word) : List Instr := [.li rd (lo16 a), .lui rd (hi16 a)]

end Sys2Proof.Machine
end

