-- ==== Sys2Proof/Machine/Run.lean ====
section
/-! DEFINITION. The end of a run (70_reset_and_hazards.md R375). -/

namespace Sys2Proof.Machine

/-- The run has finished: the pc is `END_PC` and no enabled interrupt is pending (70_reset_and_hazards.md R375). -/
def finished (s : State) : Bool := decide (s.cfg.endPc = some s.pc) && (recognised s).isNone

/-- How a run of at most so many steps ended (70_reset_and_hazards.md R375). -/
inductive RunEnd where
  /-- It reached `END_PC`: the final state. -/
  | final (s : State)
  /-- A fault outcome, or stuck: there is no final state. -/
  | fault (r : Fault)
  /-- A refusal: there is no final state. -/
  | refused (r : Refusal)
  /-- The steps are used up. -/
  | unfinished (s : State)
  deriving DecidableEq, Repr

/-- A run of at most `k` steps (70_reset_and_hazards.md R375). -/
def runFor : Nat → State → RunEnd
  | 0, s => if finished s then .final s else .unfinished s
  | k + 1, s =>
    if finished s then .final s
    else
      match step s with
      | .next t => runFor k t
      | .fault r => .fault r
      | .refused r => .refused r

end Sys2Proof.Machine
end

