-- ==== Sys2Proof/Safety.lean ====
section
/-! DEFINITION. The terms the claims use: what an instruction leaves unchanged, the form of an immediate, the invariant of the
machine, and a safe run. -/

namespace Sys2Proof.Machine

/-! ## Frames -/

/-- Register `j` of bank `b'` is the same register as register `i` of bank `b` (10_state.md R24, R25): the same number, and
the same bank or a shared number. -/
def SameReg (c : Config) (b : Bank) (i : RegIx) (b' : Bank) (j : RegIx) : Prop :=
  j = i ∧ (b' = b ∨ i ∈ c.bankShared)

/-- Register `i` of bank `b` receives `v`, seen from both banks, and no other general or global register changes. For `i = 0`
nothing is written (10_state.md R23). -/
def RegWritten (s t : State) (b : Bank) (i : RegIx) (v : Word) : Prop :=
  (∀ b' j, i ≠ 0 → SameReg s.cfg b i b' j → readBank b' j t = v) ∧
  (∀ b' j, i = 0 ∨ ¬ SameReg s.cfg b i b' j → readBank b' j t = readBank b' j s) ∧
  ∀ j, readGlobal j t = readGlobal j s

/-- Global register `i` receives `v` and no other general or global register changes (10_state.md R28). -/
def GlobalWritten (s t : State) (i : RegIx) (v : Word) : Prop :=
  (∀ b j, readBank b j t = readBank b j s) ∧ readGlobal i t = v ∧ ∀ j, j ≠ i → readGlobal j t = readGlobal j s

/-- No general and no global register changes. -/
def SameRegs (s t : State) : Prop :=
  (∀ b j, readBank b j t = readBank b j s) ∧ ∀ j, readGlobal j t = readGlobal j s

/-- Neither flag changes (10_state.md R34, R35). -/
def SameFlags (s t : State) : Prop := t.statZ = s.statZ ∧ t.statOV = s.statOV

/-- The other fields of STAT do not change: PEMA, PML, GINE, SPCP (10_state.md R44). -/
def SameStatRest (s t : State) : Prop :=
  t.statPema = s.statPema ∧ t.statPml = s.statPml ∧ t.statGine = s.statGine ∧ t.statSpcp = s.statSpcp

/-- No system register but STAT changes, no supervisor register but ECODE (10_state.md R41, R58). CPUREV and CPNUM are part
of the model arguments (`SameHidden`). -/
def SameSprs (s t : State) : Prop :=
  t.opcarp = s.opcarp ∧ t.cpidtp = s.cpidtp ∧ t.uinten = s.uinten ∧ t.rptinfo = s.rptinfo ∧ t.rpid = s.rpid ∧
  t.smstat = s.smstat ∧ t.rpcpr0 = s.rpcpr0 ∧ t.rpitp = s.rpitp ∧ t.htinfop = s.htinfop ∧ t.htctlp = s.htctlp ∧
  t.sysctp = s.sysctp

/-- The hidden state but the bank, ROI's pending bit and the resource state does not change (10_state.md R62), nor do the
mapped devices (20_memory.md R84) and the model arguments. -/
def SameHidden (s t : State) : Prop :=
  t.cfg = s.cfg ∧ t.sysRetPc = s.sysRetPc ∧ t.sysRetPml = s.sysRetPml ∧ t.extraPending = s.extraPending ∧
  t.device = s.device

/-- Every byte of the instruction space reads as before. -/
def SameCode (s t : State) : Prop := ∀ a : Word, memRead t.imem a.toNat = memRead s.imem a.toNat

/-- Every byte of the data space reads as before. -/
def SameData (s t : State) : Prop := ∀ a : Word, dataByte? t a = dataByte? s a

/-- Nothing but registers, the flags, ROI's pending bit and the pc may differ: the frame of the integer, immediate, load,
load immediate, branch and jump families. -/
def SameSystem (s t : State) : Prop :=
  SameStatRest s t ∧ SameSprs s t ∧ SameHidden s t ∧ t.ecode = s.ecode ∧ t.bank = s.bank ∧ t.resource = s.resource ∧
  SameCode s t

/-- The effect the integer and immediate families have in common (40_integer.md R140): Rd, Z, the pc; memory and everything
else but OV and ROI's pending bit is unchanged. -/
def AluEffect (s t : State) (rd : RegIx) (r : Word) : Prop :=
  t.pc = s.pc + 4 ∧ RegWritten s t s.bank rd r ∧ t.statZ = .known (decide (r = 0)) ∧ SameSystem s t ∧ SameData s t

/-- `i` is the immediate `v` extended as the parameter says (30_encoding.md R111). -/
def ExtendsTo (e : ImmExt) {n : Nat} (v : BitVec n) (i : Word) : Prop :=
  match e with
  | .sign => i.toInt = v.toInt
  | .zero => i.toNat = v.toNat

/-! ## Whole-machine rules -/

/-- The instructions that change the permission level (10_state.md R45). -/
def changesLevel : Instr → Bool
  | .pmir _ => true
  | .pmd _ => true
  | .syscall _ => true
  | .sysret => true
  | _ => false

/-- The instructions that change the active bank (10_state.md R24). -/
def changesBank : Instr → Bool
  | .syscall _ => true
  | .sysret => true
  | _ => false

/-- The store instructions (20_memory.md R71). -/
def isStore : Instr → Bool
  | .sw _ _ _ => true
  | .sh _ _ _ => true
  | .sth _ _ _ => true
  | .sb _ _ _ => true
  | _ => false

/-- The load instructions, which with the stores alone reach the data space (20_memory.md R71). -/
def isLoad : Instr → Bool
  | .lw _ _ _ => true
  | .lh _ _ _ => true
  | .lth _ _ _ => true
  | .lb _ _ _ => true
  | _ => false

/-- The instructions that write GLBREGF (10_state.md R28). -/
def writesGlobals : Instr → Bool
  | .lgi _ _ => true
  | .lugi _ _ => true
  | .lngi _ _ => true
  | .lungi _ _ => true
  | _ => false

/-- The integer and immediate instructions, which alone write Z and OV (10_state.md R34). -/
def writesFlags : Instr → Bool
  | .add _ _ _ | .sub _ _ _ | .addu _ _ _ | .subu _ _ _ | .not _ _ | .and _ _ _ | .or _ _ _ | .xor _ _ _ => true
  | .sal _ _ _ _ | .sar _ _ _ _ | .sll _ _ _ _ | .slr _ _ _ _ | .comp _ _ _ => true
  | .addi _ _ _ | .subi _ _ _ | .addui _ _ _ | .subui _ _ _ | .noti _ _ | .andi _ _ _ | .ori _ _ _ | .xori _ _ _ => true
  | .sali _ _ _ | .sari _ _ _ | .slli _ _ _ | .slri _ _ _ | .compi _ _ _ => true
  | _ => false

/-- Which exception an instruction can raise (60_exceptions.md R300, R318). -/
def mayRaise : Instr → ExcCode → Bool
  | .lw _ _ _, .misaddr | .lh _ _ _, .misaddr | .sw _ _ _, .misaddr | .sh _ _ _, .misaddr => true
  | .ldspr _ _, .insfpem | .stspr _ _, .insfpem => true
  | .syscall _, .insfpem | .syscall _, .invsys => true
  | .pmir _, .invpr | .pmd _, .invpr => true
  | _, _ => false

/-! ## The invariant -/

/-- What every step keeps on a machine with no `ExcEntry` and no `IntEntry` argument: both memories keep their canonical form,
the reserved level 110 is never entered or saved (10_state.md R45), nor, where the levels are implemented, one above MAXPML
(60_exceptions.md R335), UINTEN's NA bit is 0 (R54), and the storage of register 0 of both banks is 0 (R23). -/
structure Inv (s : State) : Prop where
  noEntries : s.cfg.excEntryGiven = false ∧ s.cfg.intEntryGiven = false
  imem : memWf s.imem = true
  dmem : memWf s.dmem = true
  level : s.statPml ≠ 0b110
  savedLevel : s.sysRetPml ≠ 0b110
  levelBound : s.cfg.pmlImplemented = true → s.statPml.toNat ≤ s.cfg.maxPml.code.toNat
  savedBound : s.cfg.pmlImplemented = true → s.sysRetPml.toNat ≤ s.cfg.maxPml.code.toNat
  naBit : s.uinten.getLsbD 15 = false
  zeroGp : fileGet s.gpregf 0 = 0
  zeroSys : fileGet s.sysregf 0 = 0

/-- A safe run of at most `k` steps: no step of it stops with a fault or a refusal (70_reset_and_hazards.md R375). -/
def SafeFor (k : Nat) (s : State) : Prop :=
  (∃ t, runFor k s = .final t) ∨ ∃ t, runFor k s = .unfinished t

end Sys2Proof.Machine
end

