-- ==== Sys2Proof/Certificates/Slice0/Obligations.lean ====
section
/-! DEFINITION. The statements for the provers. Where a statement rests on a decision the spec marks as its own, its docstring
names the decision (D<n> of 92_eei_decisions.md); where it rests on a choice of this model, the log entry. -/

open Sys2Proof Sys2Proof.Machine

/-! ## Encoding -/

/-- Decoding the word of an instruction gives the instruction back, under both opcode maps, with every operand at every value
the encoding admits. -/
def Obligations.DecodeUndoesEncode : Prop :=
  ∀ (m : OpMap) (i : Instr), i.encodable = true → decodeWord m (encode m i) = .instr i

/-- The words the spec gives for instructions of every family decode to them (its worked examples). -/
def Obligations.SpecWordsDecode : Prop :=
  decodeWord .rev02 0x4D653000 = .instr (.add 11 5 6) ∧
  decodeWord .rev02 0x5965FFF0 = .instr (.addi 11 5 0xFFF) ∧
  decodeWord .rev02 0x7965C013 = .instr (.lb 11 5 0x0013) ∧
  decodeWord .rev02 0x74653004 = .instr (.sw 6 5 0x1804) ∧
  decodeWord .rev02 0x41698001 = .instr (.lnsi 11 0x8001) ∧
  decodeWord .rev02 0x37E537E0 = .instr (.beq 5 6 0x3FF8) ∧
  decodeWord .rev02 0x33E0FFF8 = .instr (.j 0x1FFFF8) ∧
  decodeWord .rev02 0x10161234 = .instr (.jrl 22 0x1234) ∧
  decodeWord .rev02 0x8005020C = .instr (.stspr 5 0x0C) ∧
  decodeWord .summary 0x05653000 = .instr (.add 11 5 6) ∧
  decodeWord .summary 0x2005020C = .instr (.stspr 5 0x0C)

/-- Reserved and unlisted second-level selectors are illegal: aluop 0xd to 0xf of both ALU formats, the unlisted DSEL values,
system funct values from 0x09 (decision D3). -/
def Obligations.UnlistedSelectorsAreIllegal : Prop :=
  ∀ (m : OpMap) (w : Word),
    (opcodeOf w = opcodeFor m .integer → 0xd ≤ (aluopOf w).toNat →
      decodeWord m w = .illegal (.reservedAluop (aluopOf w))) ∧
    (opcodeOf w = opcodeFor m .immediate → 0xd ≤ (aluopOf w).toNat →
      decodeWord m w = .illegal (.unlistedImmAluop (aluopOf w))) ∧
    (opcodeOf w = opcodeFor m .loadImmediate →
      ((dselOf w).toNat ∈ [0x6, 0x7, 0xe, 0xf] ∨ 0x10 ≤ (dselOf w).toNat) →
      decodeWord m w = .illegal (.unlistedDsel (dselOf w))) ∧
    (opcodeOf w = opcodeFor m .system → 0x09 ≤ (sysFunctOf w).toNat →
      decodeWord m w = .illegal (.unlistedFunct (sysFunctOf w)))

/-- Every opcode is assigned to its class, a co-processor's or illegal, as the two maps say: under `REV02` the nine classes, 0x30
to 0x3F, and nothing else; under `SUMMARY` its nine classes, 0x20 to 0x3F, and nothing else (decisions D1 to D3). -/
def Obligations.OpcodeSpaceIsPartitioned : Prop :=
  ∀ w : Word,
    (opcodeOf w = 0x13 → decodeWord .rev02 w = decodeInteger w) ∧
    (opcodeOf w = 0x16 → decodeWord .rev02 w = decodeImmediate w) ∧
    (opcodeOf w = 0x10 → decodeWord .rev02 w = decodeLoadImmediate w) ∧
    (opcodeOf w = 0x0D → decodeWord .rev02 w = decodeBranch w) ∧
    (opcodeOf w = 0x0C → decodeWord .rev02 w = decodeJump w) ∧
    (opcodeOf w = 0x04 → decodeWord .rev02 w = decodeJumpLink w) ∧
    (opcodeOf w = 0x20 → decodeWord .rev02 w = decodeSystem w) ∧
    (opcodeOf w = 0x1E → decodeWord .rev02 w = decodeLoad w) ∧
    (opcodeOf w = 0x1D → decodeWord .rev02 w = decodeStore w) ∧
    (opcodeOf w = 0x01 → decodeWord .summary w = decodeInteger w) ∧
    (opcodeOf w = 0x03 → decodeWord .summary w = decodeImmediate w) ∧
    (opcodeOf w = 0x02 → decodeWord .summary w = decodeLoadImmediate w) ∧
    (opcodeOf w = 0x05 → decodeWord .summary w = decodeBranch w) ∧
    (opcodeOf w = 0x06 → decodeWord .summary w = decodeJump w) ∧
    (opcodeOf w = 0x07 → decodeWord .summary w = decodeJumpLink w) ∧
    (opcodeOf w = 0x08 → decodeWord .summary w = decodeSystem w) ∧
    (opcodeOf w = 0x12 → decodeWord .summary w = decodeLoad w) ∧
    (opcodeOf w = 0x1A → decodeWord .summary w = decodeStore w) ∧
    (0x30 ≤ (opcodeOf w).toNat → decodeWord .rev02 w = .coProcessor (opcodeOf w) w) ∧
    ((opcodeOf w).toNat < 0x30 →
      (opcodeOf w).toNat ∉ [0x04, 0x0C, 0x0D, 0x10, 0x13, 0x16, 0x1D, 0x1E, 0x20] →
      decodeWord .rev02 w = .illegal (.unassignedOpcode (opcodeOf w))) ∧
    (0x20 ≤ (opcodeOf w).toNat → decodeWord .summary w = .coProcessor (opcodeOf w) w) ∧
    ((opcodeOf w).toNat < 0x20 →
      (opcodeOf w).toNat ∉ [0x01, 0x02, 0x03, 0x05, 0x06, 0x07, 0x08, 0x12, 0x1A] →
      decodeWord .summary w = .illegal (.unassignedOpcode (opcodeOf w)))

/-- Bits 31:26 of the two words agree, and every field below that the instruction of the word `w` uses: in format R its aluop,
rd, rsa, rsb but for not, shft for the shifts alone; in format I its aluop, rd, imm12, rsa but for noti; in format SYS its funct
and the operands the funct's instruction has; in the other formats every bit is used. -/
def SameUsedBits (m : OpMap) (w w' : Word) : Prop :=
  opcodeOf w' = opcodeOf w ∧
  (opcodeOf w = opcodeFor m .integer →
    aluopOf w' = aluopOf w ∧ rdOf w' = rdOf w ∧ rsaOf w' = rsaOf w ∧ (aluopOf w ≠ 0x4 → rsbOf w' = rsbOf w) ∧
      (aluopOf w ∈ [0x8, 0x9, 0xa, 0xb] → shftOf w' = shftOf w)) ∧
  (opcodeOf w = opcodeFor m .immediate →
    aluopOf w' = aluopOf w ∧ rdOf w' = rdOf w ∧ imm12Of w' = imm12Of w ∧ (aluopOf w ≠ 0x4 → rsaOf w' = rsaOf w)) ∧
  (opcodeOf w = opcodeFor m .system →
    sysFunctOf w' = sysFunctOf w ∧ (sysFunctOf w ∈ [0x3, 0x5, 0x6] → rdOf w' = rdOf w) ∧
      (sysFunctOf w ∈ [0x2, 0x5, 0x6] → rsaOf w' = rsaOf w) ∧
      (sysFunctOf w ∈ [0x0, 0x2, 0x3, 0x7, 0x8] → imm8Of w' = imm8Of w)) ∧
  (opcodeOf w ∉ [opcodeFor m .integer, opcodeFor m .immediate, opcodeFor m .system] → w' = w)

/-- The bits an instruction does not use take no part in its decoding, under both maps: two words that agree on the opcode, the
selector and the operand fields decode alike, and the word an assembler writes for an instruction decodes as any word of it
(decision D26). -/
def Obligations.UnusedBitsAreIgnored : Prop :=
  ∀ (m : OpMap) (w : Word),
    (∀ w', SameUsedBits m w w' → decodeWord m w' = decodeWord m w) ∧
    ∀ i, decodeWord m w = .instr i → i.encodable = true ∧ decodeWord m (encode m i) = decodeWord m w

/-! ## The step -/

/-- When no interrupt is recognised and the pc is aligned: where the four bytes at it decode to an instruction the step is `exec`
of it at the same state, where they decode to a co-processor word it is that word's treatment, where they are illegal it is the
fault IllegalInstruction, which changes no state. Outside `IMemMap` the core is stuck; in a unified memory a fetch of a byte that
was stored to is refused (decisions D3, D14, D15, D33; that the stop names the pc is the model's choice, log entry 32; that a
byte nothing has loaded stops the step, log entry 8). -/
def Obligations.StepRunsDecodedInstruction : Prop :=
  ∀ s : State, recognised s = none → s.pc.toNat % 4 = 0 →
    (∀ b0 b1 b2 b3, fetchBytes s s.pc = .bytes b0 b1 b2 b3 →
      (∀ i, decodeBytes s.cfg.opMap [b0, b1, b2, b3] = .instr i → step s = exec i s) ∧
      (∀ op w, decodeBytes s.cfg.opMap [b0, b1, b2, b3] = .coProcessor op w → step s = execCoProc op w s) ∧
      (∀ why, decodeBytes s.cfg.opMap [b0, b1, b2, b3] = .illegal why → step s = .fault (.illegalInstruction (some why)))) ∧
    (allMapped s.cfg.iMemMap s.pc 4 = false → step s = .fault (.stuckFetch s.pc)) ∧
    (allMapped s.cfg.iMemMap s.pc 4 = true → s.cfg.unifiedMemory = true →
      (∃ k < 4, memRead s.dmem (s.pc + BitVec.ofNat 32 k).toNat ≠ none) → step s = .refused (.fetchFromStored s.pc)) ∧
    (fetchBytes s s.pc = .notLoaded s.pc → step s = .fault (.fetchNotLoaded s.pc))

/-- Loaded words are what is fetched: a word placed at an aligned pc of a machine with two memory spaces, memory there and no
interrupt to recognise, is the instruction the next step runs. -/
def Obligations.LoadedWordRuns : Prop :=
  ∀ (s : State) (i : Instr),
    i.encodable = true → recognised s = none → s.pc.toNat % 4 = 0 → s.cfg.unifiedMemory = false →
    allMapped s.cfg.iMemMap s.pc 4 = true →
    step (loadWordAtPc (encode s.cfg.opMap i) s) = exec i (loadWordAtPc (encode s.cfg.opMap i) s)

/-- The pending bit of an interrupt: ROI's, or that of an extra vector's address. -/
def Pending (s : State) : IntVec → Prop
  | .cpmi => False
  | .roi => s.roiPending = true
  | .extra e => e.address ∈ s.extraPending

/-- An interrupt of the machine is pending and both its switches are on. -/
def Waiting (s : State) (v : IntVec) : Prop :=
  Pending s v ∧ s.statGine = true ∧ s.uinten.getLsbD (enableBit s.cfg v).toNat = true ∧
  ∀ e, v = .extra e → e ∈ s.cfg.extraVectors

/-- A pending enabled interrupt is recognised before anything is fetched, whatever the pc: one whose vector address is the lowest
of those that wait (of several at one address, by log entry 24). The outcome is that interrupt, with its pending bit cleared and
nothing else changed, or, with `IntEntry` given, the run goes on at its vector with the bit clear; where none waits none is
recognised. On a machine with no extra vectors that is ROI, vector 0x0010, and none while GINE or its UINTEN bit is 0 (decisions
D17 and D33; that the pending bit is cleared in the state at the stop is log entry 14, the rest of an entry log entry 15). -/
def Obligations.PendingRoiIsTakenFirst : Prop :=
  ∀ s : State,
    (∀ v, Waiting s v → ∃ u, Waiting s u ∧
      (∀ w, Waiting s w → (vectorAddress u).toNat ≤ (vectorAddress w).toNat) ∧
      (s.cfg.intEntryGiven = false → ∃ t, step s = .fault (.interrupt u t) ∧ ¬ Pending t u ∧
        (∀ w, w ≠ u → (∀ e e', u = .extra e → w = .extra e' → e'.address ≠ e.address) → (Pending t w ↔ Pending s w)) ∧
        t = { s with roiPending := t.roiPending, extraPending := t.extraPending }) ∧
      (s.cfg.intEntryGiven = true →
        ∃ t, step s = .next t ∧ t.pc = vectorAddress u ∧ ¬ Pending t u ∧ t.cfg = s.cfg)) ∧
    ((∀ v, ¬ Waiting s v) → recognised s = none) ∧
    (s.cfg.extraVectors = [] →
      (s.cfg.intEntryGiven = false →
        s.roiPending = true → s.statGine = true → s.uinten.getLsbD s.cfg.uintenRoiBit.toNat = true →
        step s = .fault (.interrupt .roi { s with roiPending := false })) ∧
      (s.cfg.intEntryGiven = true →
        s.roiPending = true → s.statGine = true → s.uinten.getLsbD s.cfg.uintenRoiBit.toNat = true →
        ∃ t, step s = .next t ∧ t.pc = 0x0010 ∧ t.roiPending = false ∧ t.cfg = s.cfg) ∧
      (s.statGine = false ∨ s.uinten.getLsbD s.cfg.uintenRoiBit.toNat = false → recognised s = none))

/-- A misaligned pc raises MISADDR: ECODE is 1, nothing else changes, nothing is fetched (decisions D13 and D16). -/
def Obligations.MisalignedPcRaisesMisaddr : Prop :=
  ∀ s : State, recognised s = none → s.pc.toNat % 4 ≠ 0 → s.cfg.excEntryGiven = false →
    step s = .fault (.exception .misaddr { s with ecode := 1 })

/-! ## General registers -/

/-- Register 0 of either bank reads 0 and a write to it changes nothing; a write through one bank is seen through the other
exactly when the register is shared, and no other register changes (decisions D4 and D5). -/
def Obligations.BanksShareOnlySharedRegisters : Prop :=
  ∀ (s : State) (b : Bank) (i : RegIx) (v : Word),
    readBank b 0 s = 0 ∧ writeBank b 0 v s = s ∧
    RegWritten s (writeBank b i v s) b i v ∧
    (i ≠ 0 → readBank b i (writeBank b i v s) = v) ∧
    (i ∉ s.cfg.bankShared → ∀ b', b' ≠ b → ∀ j, readBank b' j (writeBank b i v s) = readBank b' j s)

/-! ## Integer -/

/-- add and sub: the result modulo 2^32; OV is the carry out, or the borrow, and OV = 1 makes ROI pending (OV by decision
D11). -/
def Obligations.AddAndSub : Prop :=
  ∀ (s : State) (rd rsa rsb : RegIx),
    (∃ t r, exec (.add rd rsa rsb) s = .next t ∧ AluEffect s t rd r ∧
      r.toNat = ((readReg rsa s).toNat + (readReg rsb s).toNat) % 2 ^ 32 ∧
      t.statOV = .known (decide (2 ^ 32 ≤ (readReg rsa s).toNat + (readReg rsb s).toNat)) ∧
      t.roiPending = (s.roiPending || decide (2 ^ 32 ≤ (readReg rsa s).toNat + (readReg rsb s).toNat))) ∧
    (∃ t r, exec (.sub rd rsa rsb) s = .next t ∧ AluEffect s t rd r ∧
      (r.toNat : Int) = ((readReg rsa s).toNat - (readReg rsb s).toNat : Int) % 2 ^ 32 ∧
      t.statOV = .known (decide ((readReg rsa s).toNat < (readReg rsb s).toNat)) ∧
      t.roiPending = (s.roiPending || decide ((readReg rsa s).toNat < (readReg rsb s).toNat)))

/-- addu and subu: RSa plus or minus RSb modulo 2^32 in Rd, Z says whether it is 0, OV and ROI are as they were; format R with
aluop 0x2 and 0x3 is their encoding under both maps; Rd, RSa, RSb is the order they are written in. -/
def Obligations.UnsignedAddAndSub : Prop :=
  ∀ (s : State) (rd rsa rsb : RegIx),
    (decodeWord .rev02 ((0x13 : BitVec 6) ++ rd ++ rsa ++ rsb ++ (0 : BitVec 7) ++ (0x2 : BitVec 4)) = .instr (.addu rd rsa rsb) ∧
      decodeWord .summary ((0x01 : BitVec 6) ++ rd ++ rsa ++ rsb ++ (0 : BitVec 7) ++ (0x2 : BitVec 4)) = .instr (.addu rd rsa rsb) ∧
      decodeWord .rev02 ((0x13 : BitVec 6) ++ rd ++ rsa ++ rsb ++ (0 : BitVec 7) ++ (0x3 : BitVec 4)) = .instr (.subu rd rsa rsb) ∧
      decodeWord .summary ((0x01 : BitVec 6) ++ rd ++ rsa ++ rsb ++ (0 : BitVec 7) ++ (0x3 : BitVec 4)) = .instr (.subu rd rsa rsb)) ∧
    asmLine (.addu rd rsa rsb) = ⟨"addu", [.reg rd, .reg rsa, .reg rsb]⟩ ∧
    asmLine (.subu rd rsa rsb) = ⟨"subu", [.reg rd, .reg rsa, .reg rsb]⟩ ∧
    (∃ t r, exec (.addu rd rsa rsb) s = .next t ∧ AluEffect s t rd r ∧
      r.toNat = ((readReg rsa s).toNat + (readReg rsb s).toNat) % 2 ^ 32 ∧
      t.statOV = s.statOV ∧ t.roiPending = s.roiPending) ∧
    (∃ t r, exec (.subu rd rsa rsb) s = .next t ∧ AluEffect s t rd r ∧
      (r.toNat : Int) = ((readReg rsa s).toNat - (readReg rsb s).toNat : Int) % 2 ^ 32 ∧
      t.statOV = s.statOV ∧ t.roiPending = s.roiPending)

/-- not, and, or, xor: bit by bit; OV is what `OV_NONARITH` says and ROI is never caused (decisions D11 and D34). -/
def Obligations.LogicInstructions : Prop :=
  ∀ (s : State) (rd rsa rsb : RegIx),
    (∃ t r, exec (.not rd rsa) s = .next t ∧ AluEffect s t rd r ∧
      (∀ k < 32, r.getLsbD k = !(readReg rsa s).getLsbD k) ∧
      t.statOV = s.cfg.ovNonArith ∧ t.roiPending = s.roiPending) ∧
    (∃ t r, exec (.and rd rsa rsb) s = .next t ∧ AluEffect s t rd r ∧
      (∀ k, r.getLsbD k = ((readReg rsa s).getLsbD k && (readReg rsb s).getLsbD k)) ∧
      t.statOV = s.cfg.ovNonArith ∧ t.roiPending = s.roiPending) ∧
    (∃ t r, exec (.or rd rsa rsb) s = .next t ∧ AluEffect s t rd r ∧
      (∀ k, r.getLsbD k = ((readReg rsa s).getLsbD k || (readReg rsb s).getLsbD k)) ∧
      t.statOV = s.cfg.ovNonArith ∧ t.roiPending = s.roiPending) ∧
    (∃ t r, exec (.xor rd rsa rsb) s = .next t ∧ AluEffect s t rd r ∧
      (∀ k, r.getLsbD k = xor ((readReg rsa s).getLsbD k) ((readReg rsb s).getLsbD k)) ∧
      t.statOV = s.cfg.ovNonArith ∧ t.roiPending = s.roiPending)

/-- The four shifts with shft = 0, by the whole value of RSb: multiplication and floor division by 2^n; from 32 on the
mathematical shift where `ShiftOver` is the default. With another shft they are refused (decision D10; that `sar` fills with
copies of bit 31 is the spec's general knowledge, log entry 25). -/
def Obligations.ShiftInstructions : Prop :=
  ∀ (s : State) (rd rsa rsb : RegIx),
    let a := readReg rsa s
    let n := (readReg rsb s).toNat
    let inRange := n < 32 ∨ s.cfg.shiftOver = .mathematical
    (∃ t r, exec (.sal rd rsa rsb 0) s = .next t ∧ AluEffect s t rd r ∧
      (inRange → r.toNat = a.toNat * 2 ^ n % 2 ^ 32) ∧
      t.statOV = s.cfg.ovNonArith ∧ t.roiPending = s.roiPending) ∧
    (∃ t r, exec (.sll rd rsa rsb 0) s = .next t ∧ AluEffect s t rd r ∧
      (inRange → r.toNat = a.toNat * 2 ^ n % 2 ^ 32) ∧
      t.statOV = s.cfg.ovNonArith ∧ t.roiPending = s.roiPending) ∧
    (∃ t r, exec (.slr rd rsa rsb 0) s = .next t ∧ AluEffect s t rd r ∧
      (inRange → r.toNat = a.toNat / 2 ^ n) ∧
      t.statOV = s.cfg.ovNonArith ∧ t.roiPending = s.roiPending) ∧
    (∃ t r, exec (.sar rd rsa rsb 0) s = .next t ∧ AluEffect s t rd r ∧
      (inRange → r.toInt = a.toInt / 2 ^ n) ∧
      t.statOV = s.cfg.ovNonArith ∧ t.roiPending = s.roiPending) ∧
    ∀ shft : BitVec 7, shft ≠ 0 →
      exec (.sal rd rsa rsb shft) s = .refused (.shiftFieldNotZero shft) ∧
      exec (.sar rd rsa rsb shft) s = .refused (.shiftFieldNotZero shft) ∧
      exec (.sll rd rsa rsb shft) s = .refused (.shiftFieldNotZero shft) ∧
      exec (.slr rd rsa rsb shft) s = .refused (.shiftFieldNotZero shft)

/-- comp: 0, 1 or -1 as RSa is equal to, greater than or less than RSb, signed by default (decision D9). -/
def Obligations.CompareRegisters : Prop :=
  ∀ (s : State) (rd rsa rsb : RegIx),
    ∃ t r, exec (.comp rd rsa rsb) s = .next t ∧ AluEffect s t rd r ∧
      (s.cfg.cmpSigned = true → r.toInt = ((readReg rsa s).toInt - (readReg rsb s).toInt).sign) ∧
      (s.cfg.cmpSigned = false → r.toInt = ((readReg rsa s).toNat - (readReg rsb s).toNat : Int).sign) ∧
      t.statOV = s.cfg.ovNonArith ∧ t.roiPending = s.roiPending

/-! ## Immediate -/

/-- addi and subi: as add and sub, with the extended immediate (decisions D7 and D11). -/
def Obligations.AddAndSubImmediate : Prop :=
  ∀ (s : State) (rd rsa : RegIx) (imm : BitVec 12), ∃ i : Word, ExtendsTo s.cfg.imm12ArithExt imm i ∧
    (∃ t r, exec (.addi rd rsa imm) s = .next t ∧ AluEffect s t rd r ∧
      r.toNat = ((readReg rsa s).toNat + i.toNat) % 2 ^ 32 ∧
      t.statOV = .known (decide (2 ^ 32 ≤ (readReg rsa s).toNat + i.toNat)) ∧
      t.roiPending = (s.roiPending || decide (2 ^ 32 ≤ (readReg rsa s).toNat + i.toNat))) ∧
    (∃ t r, exec (.subi rd rsa imm) s = .next t ∧ AluEffect s t rd r ∧
      (r.toNat : Int) = ((readReg rsa s).toNat - i.toNat : Int) % 2 ^ 32 ∧
      t.statOV = .known (decide ((readReg rsa s).toNat < i.toNat)) ∧
      t.roiPending = (s.roiPending || decide ((readReg rsa s).toNat < i.toNat)))

/-- addui and subui: the same results; OV and ROI are as they were (decision D7). -/
def Obligations.UnsignedAddAndSubImmediate : Prop :=
  ∀ (s : State) (rd rsa : RegIx) (imm : BitVec 12), ∃ i : Word, ExtendsTo s.cfg.imm12ArithExt imm i ∧
    (∃ t r, exec (.addui rd rsa imm) s = .next t ∧ AluEffect s t rd r ∧
      r.toNat = ((readReg rsa s).toNat + i.toNat) % 2 ^ 32 ∧
      t.statOV = s.statOV ∧ t.roiPending = s.roiPending) ∧
    (∃ t r, exec (.subui rd rsa imm) s = .next t ∧ AluEffect s t rd r ∧
      (r.toNat : Int) = ((readReg rsa s).toNat - i.toNat : Int) % 2 ^ 32 ∧
      t.statOV = s.statOV ∧ t.roiPending = s.roiPending)

/-- noti, andi, ori, xori: bit by bit with the extended immediate; noti reads no register (decisions D7, D11, D34). -/
def Obligations.LogicImmediateInstructions : Prop :=
  ∀ (s : State) (rd rsa : RegIx) (imm : BitVec 12), ∃ i : Word, ExtendsTo s.cfg.imm12LogicExt imm i ∧
    (∃ t r, exec (.noti rd imm) s = .next t ∧ AluEffect s t rd r ∧
      (∀ k < 32, r.getLsbD k = !i.getLsbD k) ∧
      t.statOV = s.cfg.ovNonArith ∧ t.roiPending = s.roiPending) ∧
    (∃ t r, exec (.andi rd rsa imm) s = .next t ∧ AluEffect s t rd r ∧
      (∀ k, r.getLsbD k = ((readReg rsa s).getLsbD k && i.getLsbD k)) ∧
      t.statOV = s.cfg.ovNonArith ∧ t.roiPending = s.roiPending) ∧
    (∃ t r, exec (.ori rd rsa imm) s = .next t ∧ AluEffect s t rd r ∧
      (∀ k, r.getLsbD k = ((readReg rsa s).getLsbD k || i.getLsbD k)) ∧
      t.statOV = s.cfg.ovNonArith ∧ t.roiPending = s.roiPending) ∧
    (∃ t r, exec (.xori rd rsa imm) s = .next t ∧ AluEffect s t rd r ∧
      (∀ k, r.getLsbD k = xor ((readReg rsa s).getLsbD k) (i.getLsbD k)) ∧
      t.statOV = s.cfg.ovNonArith ∧ t.roiPending = s.roiPending)

/-- sali, slli, slri, sari: by the unsigned immediate, 0 to 4095; from 32 on the mathematical shift where `ShiftOver` is the
default (decisions D7 and D10; log entry 25 for `sari`). -/
def Obligations.ShiftImmediateInstructions : Prop :=
  ∀ (s : State) (rd rsa : RegIx) (imm : BitVec 12),
    let a := readReg rsa s
    let n := imm.toNat
    let inRange := n < 32 ∨ s.cfg.shiftOver = .mathematical
    (∃ t r, exec (.sali rd rsa imm) s = .next t ∧ AluEffect s t rd r ∧
      (inRange → r.toNat = a.toNat * 2 ^ n % 2 ^ 32) ∧
      t.statOV = s.cfg.ovNonArith ∧ t.roiPending = s.roiPending) ∧
    (∃ t r, exec (.slli rd rsa imm) s = .next t ∧ AluEffect s t rd r ∧
      (inRange → r.toNat = a.toNat * 2 ^ n % 2 ^ 32) ∧
      t.statOV = s.cfg.ovNonArith ∧ t.roiPending = s.roiPending) ∧
    (∃ t r, exec (.slri rd rsa imm) s = .next t ∧ AluEffect s t rd r ∧
      (inRange → r.toNat = a.toNat / 2 ^ n) ∧
      t.statOV = s.cfg.ovNonArith ∧ t.roiPending = s.roiPending) ∧
    (∃ t r, exec (.sari rd rsa imm) s = .next t ∧ AluEffect s t rd r ∧
      (inRange → r.toInt = a.toInt / 2 ^ n) ∧
      t.statOV = s.cfg.ovNonArith ∧ t.roiPending = s.roiPending)

/-- compi: 0, 1 or -1 as RSa is equal to, greater than or less than the extended immediate (decisions D7 and D9). -/
def Obligations.CompareImmediate : Prop :=
  ∀ (s : State) (rd rsa : RegIx) (imm : BitVec 12), ∃ i : Word, ExtendsTo s.cfg.imm12ArithExt imm i ∧
    ∃ t r, exec (.compi rd rsa imm) s = .next t ∧ AluEffect s t rd r ∧
      (s.cfg.cmpSigned = true → r.toInt = ((readReg rsa s).toInt - i.toInt).sign) ∧
      (s.cfg.cmpSigned = false → r.toInt = ((readReg rsa s).toNat - i.toNat : Int).sign) ∧
      t.statOV = s.cfg.ovNonArith ∧ t.roiPending = s.roiPending

/-! ## Loads and stores -/

/-- MemRead and MemWrite of 1 to 4 bytes: a read is the bytes from the address on, the most significant first, with zeros above;
a write stores the low 8n bits of the value, the most significant byte first, and changes no other byte. Addresses are
modulo 2^32. -/
def Obligations.MemoryAccessIsBigEndian : Prop :=
  ∀ (s : State) (a v : Word) (n : Nat), 1 ≤ n → n ≤ 4 →
    (loadValue s a n).toNat < 2 ^ (8 * n) ∧
    (∀ k < n, (loadValue s a n).extractLsb' (8 * (n - 1 - k)) 8 = dataByte s (a + BitVec.ofNat 32 k)) ∧
    (∀ k < n, memRead (storeValue s.dmem a v n) (a + BitVec.ofNat 32 k).toNat =
      some (v.extractLsb' (8 * (n - 1 - k)) 8)) ∧
    ∀ x : Word, (∀ k < n, x ≠ a + BitVec.ofNat 32 k) →
      memRead (storeValue s.dmem a v n) x.toNat = memRead s.dmem x.toNat

/-- The frame of a load: Rd, the pc, and the model's draw counter; no flag, no memory. -/
def LoadEffect (s t : State) (rd : RegIx) (r : Word) : Prop :=
  t.pc = s.pc + 4 ∧ RegWritten s t s.bank rd r ∧ SameFlags s t ∧ t.roiPending = s.roiPending ∧ SameSystem s t ∧ SameData s t

/-- A load of `n` bytes at `a` that touches a mapped device completes: each byte in a window is the device's answer, any other is
memory's, the upper bytes are 0, the device state moves as the device answers, and the rest is a load's frame. -/
def DeviceLoad (s : State) (i : Instr) (rd : RegIx) (a : Word) (n : Nat) : Prop :=
  ∃ t r, exec i s = .next t ∧ LoadEffect s { t with device := s.device } rd r ∧ t.device = (deviceRead s a n).2 ∧
    r.toNat < 2 ^ (8 * n) ∧
    ∀ k < n, r.extractLsb' (8 * (n - 1 - k)) 8 =
      if isDevice s.cfg.dMemMap (a + BitVec.ofNat 32 k) then (deviceRead s a n).1.extractLsb' (8 * (n - 1 - k)) 8
      else dataByte s (a + BitVec.ofNat 32 k)

/-- A load whose address passes the alignment test and holds memory completes: it writes the bytes, the lowest address most
significant, with the upper bytes 0, and has no side effect. The value is stated where the bytes have been written; a byte
nothing has written is a free draw (log entry 7). Addresses wrap modulo 2^32 (decisions D7, D12, D13). A load that touches the
window of a mapped device takes the device's answer (log entry 33). -/
def Obligations.LoadsReadBigEndian : Prop :=
  ∀ (s : State) (rd rsa : RegIx) (imm : BitVec 14), ∃ i : Word, ExtendsTo s.cfg.imm14Ext imm i ∧
    ∀ a : Word, a = readReg rsa s + i →
    ((s.cfg.alignPolicy = .strict → a.toNat % 4 = 0) → allMapped s.cfg.dataMap a 4 = true →
      (touchesDevice s.cfg.dMemMap a 4 = true → DeviceLoad s (.lw rd rsa imm) rd a 4) ∧
      (touchesDevice s.cfg.dMemMap a 4 = false → ∃ t r, exec (.lw rd rsa imm) s = .next t ∧ LoadEffect s t rd r ∧
        ∀ b0 b1 b2 b3, dataByte? s a = some b0 → dataByte? s (a + 1) = some b1 → dataByte? s (a + 2) = some b2 →
          dataByte? s (a + 3) = some b3 →
          r.toNat = b0.toNat * 2 ^ 24 + b1.toNat * 2 ^ 16 + b2.toNat * 2 ^ 8 + b3.toNat)) ∧
    ((s.cfg.alignPolicy = .strict → a.toNat % 2 = 0) → allMapped s.cfg.dataMap a 2 = true →
      (touchesDevice s.cfg.dMemMap a 2 = true → DeviceLoad s (.lh rd rsa imm) rd a 2) ∧
      (touchesDevice s.cfg.dMemMap a 2 = false → ∃ t r, exec (.lh rd rsa imm) s = .next t ∧ LoadEffect s t rd r ∧
        ∀ b0 b1, dataByte? s a = some b0 → dataByte? s (a + 1) = some b1 →
          r.toNat = b0.toNat * 2 ^ 8 + b1.toNat)) ∧
    (allMapped s.cfg.dataMap a 3 = true →
      (touchesDevice s.cfg.dMemMap a 3 = true → DeviceLoad s (.lth rd rsa imm) rd a 3) ∧
      (touchesDevice s.cfg.dMemMap a 3 = false → ∃ t r, exec (.lth rd rsa imm) s = .next t ∧ LoadEffect s t rd r ∧
        ∀ b0 b1 b2, dataByte? s a = some b0 → dataByte? s (a + 1) = some b1 → dataByte? s (a + 2) = some b2 →
          r.toNat = b0.toNat * 2 ^ 16 + b1.toNat * 2 ^ 8 + b2.toNat)) ∧
    (allMapped s.cfg.dataMap a 1 = true →
      (touchesDevice s.cfg.dMemMap a 1 = true → DeviceLoad s (.lb rd rsa imm) rd a 1) ∧
      (touchesDevice s.cfg.dMemMap a 1 = false → ∃ t r, exec (.lb rd rsa imm) s = .next t ∧ LoadEffect s t rd r ∧
        ∀ b0, dataByte? s a = some b0 → r.toNat = b0.toNat))

/-- The frame of a store of `n` bytes `v` at `a`: the bytes are the low `n` of `v`, the most significant at the lowest address;
every other byte of the data space reads as before; no register and no flag changes. Each of the bytes is listed as stored to, in
the window of a mapped device too, where no load reads it (log entry 33); the devices move as they answer the write of the low
bytes of `v`, where one is touched, and not otherwise. -/
def StoreEffect (s t : State) (a : Word) (n : Nat) (v : Word) : Prop :=
  t.pc = s.pc + 4 ∧ SameRegs s t ∧ SameFlags s t ∧ t.roiPending = s.roiPending ∧
  SameSystem s { t with device := s.device } ∧
  t.device = (if touchesDevice s.cfg.dMemMap a n then deviceWrite s a n v else s.device) ∧
  (∀ k < n, dataByte? t (a + BitVec.ofNat 32 k) = some (v.extractLsb' (8 * (n - 1 - k)) 8) ∧
    memRead t.dmem (a + BitVec.ofNat 32 k).toNat ≠ none) ∧
  ∀ x : Word, (∀ k < n, x ≠ a + BitVec.ofNat 32 k) → dataByte? t x = dataByte? s x

/-- A store whose address passes the alignment test and holds memory or a mapped device completes: it writes the low bytes of RSb
and nothing else (decisions D7, D12, D13; the devices, log entry 33). -/
def Obligations.StoresWriteBigEndian : Prop :=
  ∀ (s : State) (rsb rsa : RegIx) (imm : BitVec 14),
    ∃ i : Word, ExtendsTo s.cfg.imm14Ext imm i ∧
    ∀ a : Word, a = readReg rsa s + i →
    ((s.cfg.alignPolicy = .strict → a.toNat % 4 = 0) → allMapped s.cfg.dataMap a 4 = true →
      ∃ t, exec (.sw rsb rsa imm) s = .next t ∧ StoreEffect s t a 4 (readReg rsb s)) ∧
    ((s.cfg.alignPolicy = .strict → a.toNat % 2 = 0) → allMapped s.cfg.dataMap a 2 = true →
      ∃ t, exec (.sh rsb rsa imm) s = .next t ∧ StoreEffect s t a 2 (readReg rsb s)) ∧
    (allMapped s.cfg.dataMap a 3 = true →
      ∃ t, exec (.sth rsb rsa imm) s = .next t ∧ StoreEffect s t a 3 (readReg rsb s)) ∧
    (allMapped s.cfg.dataMap a 1 = true →
      ∃ t, exec (.sb rsb rsa imm) s = .next t ∧ StoreEffect s t a 1 (readReg rsb s))

/-- Under the strict policy a misaligned lw, sw, lh or sh raises MISADDR: ECODE is 1 and nothing else changes; an access that
passes the policy's alignment test, every access under the policy `byte`, and touches an address with no memory is stuck
(decisions D13, D14, D16). That the stuck outcome names the first address of the access is the model's choice (log entry 32). -/
def Obligations.BadAddressesStopLoadsAndStores : Prop :=
  ∀ (s : State) (r rsa : RegIx) (imm : BitVec 14), ∀ a : Word, a = effAddr rsa imm s →
    (s.cfg.alignPolicy = .strict → s.cfg.excEntryGiven = false →
      (a.toNat % 4 ≠ 0 → exec (.lw r rsa imm) s = .fault (.exception .misaddr { s with ecode := 1 }) ∧
        exec (.sw r rsa imm) s = .fault (.exception .misaddr { s with ecode := 1 })) ∧
      (a.toNat % 2 ≠ 0 → exec (.lh r rsa imm) s = .fault (.exception .misaddr { s with ecode := 1 }) ∧
        exec (.sh r rsa imm) s = .fault (.exception .misaddr { s with ecode := 1 }))) ∧
    ((s.cfg.alignPolicy = .strict → a.toNat % 4 = 0) → allMapped s.cfg.dataMap a 4 = false →
      exec (.lw r rsa imm) s = .fault (.stuckData a) ∧ exec (.sw r rsa imm) s = .fault (.stuckData a)) ∧
    ((s.cfg.alignPolicy = .strict → a.toNat % 2 = 0) → allMapped s.cfg.dataMap a 2 = false →
      exec (.lh r rsa imm) s = .fault (.stuckData a) ∧ exec (.sh r rsa imm) s = .fault (.stuckData a)) ∧
    (allMapped s.cfg.dataMap a 3 = false →
      exec (.lth r rsa imm) s = .fault (.stuckData a) ∧ exec (.sth r rsa imm) s = .fault (.stuckData a)) ∧
    (allMapped s.cfg.dataMap a 1 = false →
      exec (.lb r rsa imm) s = .fault (.stuckData a) ∧ exec (.sb r rsa imm) s = .fault (.stuckData a))

/-- A load of n bytes after a store of n bytes at the same place in memory gives the low n bytes stored, for the four widths (the
bytes a load reads are the ones last stored, by decision D28); the window of a mapped device promises nothing of the kind. -/
def Obligations.StoreThenLoad : Prop :=
  ∀ (s t : State) (rd rsb rsa : RegIx) (imm : BitVec 14),
    s.cfg.excEntryGiven = false → rd ≠ 0 →
    (touchesDevice s.cfg.dMemMap (effAddr rsa imm s) 4 = false → exec (.sw rsb rsa imm) s = .next t →
      ∃ u, exec (.lw rd rsa imm) t = .next u ∧
      (readReg rd u).toNat = (readReg rsb s).toNat) ∧
    (touchesDevice s.cfg.dMemMap (effAddr rsa imm s) 2 = false → exec (.sh rsb rsa imm) s = .next t →
      ∃ u, exec (.lh rd rsa imm) t = .next u ∧
      (readReg rd u).toNat = (readReg rsb s).toNat % 2 ^ 16) ∧
    (touchesDevice s.cfg.dMemMap (effAddr rsa imm s) 3 = false → exec (.sth rsb rsa imm) s = .next t →
      ∃ u, exec (.lth rd rsa imm) t = .next u ∧
      (readReg rd u).toNat = (readReg rsb s).toNat % 2 ^ 24) ∧
    (touchesDevice s.cfg.dMemMap (effAddr rsa imm s) 1 = false → exec (.sb rsb rsa imm) s = .next t →
      ∃ u, exec (.lb rd rsa imm) t = .next u ∧
      (readReg rd u).toNat = (readReg rsb s).toNat % 2 ^ 8)

/-- After a word is stored, the narrower reads at its address take its upper bytes, and a byte read three further on takes its
lowest (20_memory.md R78). -/
def Obligations.NarrowReadsOfWideStore : Prop :=
  ∀ (s : State) (a v : Word),
    let t := { s with dmem := storeValue s.dmem a v 4 }
    loadValue t a 1 = v >>> 24 ∧ loadValue t a 2 = v >>> 16 ∧ loadValue t a 3 = v >>> 8 ∧ loadValue t a 4 = v ∧
    loadValue t (a + 3) 1 = v &&& 0xFF ∧ loadValue t (a + 1) 3 = v &&& 0xFFFFFF

/-! ## Load immediate -/

/-- The frame of a load immediate: the named register and the pc. -/
def ImmEffect (s t : State) : Prop :=
  t.pc = s.pc + 4 ∧ SameFlags s t ∧ t.roiPending = s.roiPending ∧ SameSystem s t ∧ SameData s t

/-- li, lni, lui, luni write GPREGF and lsi, lnsi, lusi, lunsi write SYSREGF, whatever bank is active; with `LI_MODE` whole the
value is the sign-extended, the zero-extended or the shifted immediate (decisions D6 and D12). -/
def Obligations.LoadImmediateWhole : Prop :=
  ∀ (s : State) (rd : RegIx) (imm : BitVec 16), s.cfg.liMode = .whole →
    ∃ lo hi : Word, lo.toInt = imm.toInt ∧ hi.toNat = imm.toNat * 2 ^ 16 ∧
    (∃ t, exec (.li rd imm) s = .next t ∧ ImmEffect s t ∧ RegWritten s t .user rd lo) ∧
    (∃ t, exec (.lni rd imm) s = .next t ∧ ImmEffect s t ∧ RegWritten s t .user rd (BitVec.ofNat 32 imm.toNat)) ∧
    (∃ t, exec (.lui rd imm) s = .next t ∧ ImmEffect s t ∧ RegWritten s t .user rd hi) ∧
    (∃ t, exec (.luni rd imm) s = .next t ∧ ImmEffect s t ∧ RegWritten s t .user rd hi) ∧
    (∃ t, exec (.lsi rd imm) s = .next t ∧ ImmEffect s t ∧ RegWritten s t .sys rd lo) ∧
    (∃ t, exec (.lnsi rd imm) s = .next t ∧ ImmEffect s t ∧ RegWritten s t .sys rd (BitVec.ofNat 32 imm.toNat)) ∧
    (∃ t, exec (.lusi rd imm) s = .next t ∧ ImmEffect s t ∧ RegWritten s t .sys rd hi) ∧
    (∃ t, exec (.lunsi rd imm) s = .next t ∧ ImmEffect s t ∧ RegWritten s t .sys rd hi)

/-- lgi, lngi, lugi, lungi write GLBREGF, register 0 like any other, with the same values (decisions D6, D12, D31). -/
def Obligations.LoadImmediateGlobal : Prop :=
  ∀ (s : State) (rd : RegIx) (imm : BitVec 16), s.cfg.liMode = .whole →
    ∃ lo hi : Word, lo.toInt = imm.toInt ∧ hi.toNat = imm.toNat * 2 ^ 16 ∧
    (∃ t, exec (.lgi rd imm) s = .next t ∧ ImmEffect s t ∧ GlobalWritten s t rd lo) ∧
    (∃ t, exec (.lngi rd imm) s = .next t ∧ ImmEffect s t ∧ GlobalWritten s t rd (BitVec.ofNat 32 imm.toNat)) ∧
    (∃ t, exec (.lugi rd imm) s = .next t ∧ ImmEffect s t ∧ GlobalWritten s t rd hi) ∧
    (∃ t, exec (.lungi rd imm) s = .next t ∧ ImmEffect s t ∧ GlobalWritten s t rd hi)

/-- What a lower and an upper form write over `old` under `LI_MODE` half. -/
def HalfWritten (old : Word) (imm : BitVec 16) (lo hi : Word) : Prop :=
  lo.toNat = old.toNat / 2 ^ 16 * 2 ^ 16 + imm.toNat ∧ hi.toNat = imm.toNat * 2 ^ 16 + old.toNat % 2 ^ 16

/-- Under `LI_MODE` half, a lower form keeps bits 31:16 of the register and an upper form bits 15:0, in all three files; signed
and unsigned forms are the same (decision D6, the alternative). -/
def Obligations.LoadImmediateHalf : Prop :=
  ∀ (s : State) (rd : RegIx) (imm : BitVec 16), s.cfg.liMode = .half →
    (∃ lo hi : Word, HalfWritten (readBank .user rd s) imm lo hi ∧
      (∃ t, exec (.li rd imm) s = .next t ∧ ImmEffect s t ∧ RegWritten s t .user rd lo) ∧
      (∃ t, exec (.lni rd imm) s = .next t ∧ ImmEffect s t ∧ RegWritten s t .user rd lo) ∧
      (∃ t, exec (.lui rd imm) s = .next t ∧ ImmEffect s t ∧ RegWritten s t .user rd hi) ∧
      (∃ t, exec (.luni rd imm) s = .next t ∧ ImmEffect s t ∧ RegWritten s t .user rd hi)) ∧
    (∃ lo hi : Word, HalfWritten (readBank .sys rd s) imm lo hi ∧
      (∃ t, exec (.lsi rd imm) s = .next t ∧ ImmEffect s t ∧ RegWritten s t .sys rd lo) ∧
      (∃ t, exec (.lnsi rd imm) s = .next t ∧ ImmEffect s t ∧ RegWritten s t .sys rd lo) ∧
      (∃ t, exec (.lusi rd imm) s = .next t ∧ ImmEffect s t ∧ RegWritten s t .sys rd hi) ∧
      (∃ t, exec (.lunsi rd imm) s = .next t ∧ ImmEffect s t ∧ RegWritten s t .sys rd hi)) ∧
    (∃ lo hi : Word, HalfWritten (readGlobal rd s) imm lo hi ∧
      (∃ t, exec (.lgi rd imm) s = .next t ∧ ImmEffect s t ∧ GlobalWritten s t rd lo) ∧
      (∃ t, exec (.lngi rd imm) s = .next t ∧ ImmEffect s t ∧ GlobalWritten s t rd lo) ∧
      (∃ t, exec (.lugi rd imm) s = .next t ∧ ImmEffect s t ∧ GlobalWritten s t rd hi) ∧
      (∃ t, exec (.lungi rd imm) s = .next t ∧ ImmEffect s t ∧ GlobalWritten s t rd hi))

/-! ## Branches and jumps -/

/-- A branch goes to its own address plus the extended immediate if the condition holds, and to `pc + 4` otherwise; nothing but
the pc changes (decisions D7 and D12). -/
def BranchGoes (s : State) (i : Instr) (imm : BitVec 14) (cond : Prop) : Prop :=
  ∃ o : Word, ExtendsTo s.cfg.imm14Ext imm o ∧
    ∃ t, exec i s = .next t ∧ t = { s with pc := t.pc } ∧ (cond → t.pc = s.pc + o) ∧ (¬ cond → t.pc = s.pc + 4)

/-- beq and bne. -/
def Obligations.BranchOnEquality : Prop :=
  ∀ (s : State) (rsa rsb : RegIx) (imm : BitVec 14),
    BranchGoes s (.beq rsa rsb imm) imm (readReg rsa s = readReg rsb s) ∧
    BranchGoes s (.bne rsa rsb imm) imm (readReg rsa s ≠ readReg rsb s)

/-- bgt and blt: signed by default, unsigned with `CMP_SIGNED = false` (decision D9). -/
def Obligations.BranchOnOrder : Prop :=
  ∀ (s : State) (rsa rsb : RegIx) (imm : BitVec 14),
    (s.cfg.cmpSigned = true →
      BranchGoes s (.bgt rsa rsb imm) imm ((readReg rsa s).toInt > (readReg rsb s).toInt) ∧
      BranchGoes s (.blt rsa rsb imm) imm ((readReg rsa s).toInt < (readReg rsb s).toInt)) ∧
    (s.cfg.cmpSigned = false →
      BranchGoes s (.bgt rsa rsb imm) imm ((readReg rsa s).toNat > (readReg rsb s).toNat) ∧
      BranchGoes s (.blt rsa rsb imm) imm ((readReg rsa s).toNat < (readReg rsb s).toNat))

/-- j and jal go to their own address plus the extended immediate, or, under `J_MODE = always_register`, to the extended
immediate; jr and jrl go to RSa plus it, with no pc. j and jr change nothing but the pc (decisions D7 and D8). -/
def Obligations.JumpTargets : Prop :=
  ∀ (s : State) (rsa : RegIx) (imm : BitVec 21), ∃ o : Word, ExtendsTo s.cfg.imm21Ext imm o ∧
    (s.cfg.jMode = .pcrelWhenRsaZero → exec (.j imm) s = .next { s with pc := s.pc + o } ∧
      ∃ t, exec (.jal imm) s = .next t ∧ t.pc = s.pc + o) ∧
    (s.cfg.jMode = .alwaysRegister → exec (.j imm) s = .next { s with pc := o } ∧
      ∃ t, exec (.jal imm) s = .next t ∧ t.pc = o) ∧
    exec (.jr rsa imm) s = .next { s with pc := readReg rsa s + o } ∧
    ∃ t, exec (.jrl rsa imm) s = .next t ∧ t.pc = readReg rsa s + o

/-- jal and jrl write `pc + 4`, the address after the jump, to $R4 of the active bank; the base register is read before the
link is written. Flags, memory and everything else are unchanged. -/
def Obligations.LinkingJumpsSaveTheReturnAddress : Prop :=
  ∀ (s : State) (rsa : RegIx) (imm : BitVec 21),
    (∃ t, exec (.jal imm) s = .next t ∧ RegWritten s t s.bank 4 (s.pc + 4) ∧ t.pc = jumpTarget imm s ∧
      SameFlags s t ∧ t.roiPending = s.roiPending ∧ SameSystem s t ∧ SameData s t) ∧
    (∃ t, exec (.jrl rsa imm) s = .next t ∧ RegWritten s t s.bank 4 (s.pc + 4) ∧ t.pc = jumpRegTarget rsa imm s ∧
      SameFlags s t ∧ t.roiPending = s.roiPending ∧ SameSystem s t ∧ SameData s t)

/-- The call macro reaches its address with the address after it in $R4, and ret, run there, comes back (with the defaults of
`LI_MODE` and of the immediates, and $R22 shared as by default or the USER bank active; decisions D5, D6, D7). -/
def Obligations.CallReachesItsAddressAndRetReturns : Prop :=
  ∀ (s : State) (a : Word), s.cfg.liMode = .whole → (s.bank = .user ∨ (22 : RegIx) ∈ s.cfg.bankShared) →
    ∃ i1 i2 t u, expandCall a = [i1, i2] ∧ exec i1 s = .next t ∧ exec i2 t = .next u ∧
      u.pc = a ∧ readReg 4 u = s.pc + 8 ∧ (readReg 22 u).toNat = a.toNat / 2 ^ 16 * 2 ^ 16 ∧
      ∃ i3 v, expandRet = [i3] ∧ exec i3 u = .next v ∧ v.pc = s.pc + 8

/-- The la macro leaves `hi16 << 16` in Rd under `LI_MODE` whole, not the address, and the address under half (decision D6). -/
def Obligations.LaLoadsOnlyTheUpperHalf : Prop :=
  ∀ (s : State) (rd : RegIx) (a : Word), rd ≠ 0 →
    ∃ i1 i2 t u, expandLa rd a = [i1, i2] ∧ exec i1 s = .next t ∧ exec i2 t = .next u ∧
      (s.cfg.liMode = .whole → (readBank .user rd u).toNat = a.toNat / 2 ^ 16 * 2 ^ 16) ∧
      (s.cfg.liMode = .half → readBank .user rd u = a)

/-- Where the pc goes, for every instruction that completes: a taken branch, a jump, a syscall and a sysret set it by the
functions of their own rules; every other instruction, a branch not taken among them, ends with `pc + 4`. -/
def Obligations.EveryOtherInstructionAdvances : Prop :=
  ∀ (i : Instr) (s t : State), exec i s = .next t → s.cfg.excEntryGiven = false →
    match i with
    | .beq rsa rsb imm => t.pc = if readReg rsa s = readReg rsb s then branchTarget imm s else s.pc + 4
    | .bne rsa rsb imm => t.pc = if readReg rsa s = readReg rsb s then s.pc + 4 else branchTarget imm s
    | .bgt rsa rsb imm => t.pc = if greater s.cfg (readReg rsa s) (readReg rsb s) then branchTarget imm s else s.pc + 4
    | .blt rsa rsb imm => t.pc = if greater s.cfg (readReg rsb s) (readReg rsa s) then branchTarget imm s else s.pc + 4
    | .j imm => t.pc = jumpTarget imm s
    | .jal imm => t.pc = jumpTarget imm s
    | .jr rsa imm => t.pc = jumpRegTarget rsa imm s
    | .jrl rsa imm => t.pc = jumpRegTarget rsa imm s
    | .syscall n =>
      ∃ rows e, s.cfg.sysCallTable = some rows ∧ sysCallLookup rows s.sysctp n = some e ∧ t.pc = e.entryPc
    | .sysret => t.pc = s.sysRetPc
    | _ => t.pc = s.pc + 4

/-! ## System calls -/

/-- An accepted system call: the return address and level are saved, PEMA is 1, the level is the higher of the caller's and the
routine's, the bank is SYS, the pc is the routine's; no register's storage, flag or memory changes. Where the levels are not
implemented the level is 7 and PEMA 1 throughout (decisions D5, D18, D35). Where the routine's level is above MAXPML, which does
not exist, the level is not lowered and stays one that exists (log entry 16). -/
def Obligations.AcceptedSyscallEntersTheRoutine : Prop :=
  ∀ (s : State) (n : Byte) (rows : List SysCallRow) (e : SysCallEntry),
    s.cfg.sysCallTable = some rows → s.bank = .user → s.sysctp ≠ 0 →
    sysCallLookup rows s.sysctp n = some e → e.minPml.code.toNat ≤ (level s).toNat →
    ∃ t, exec (.syscall n) s = .next t ∧
      t.pc = e.entryPc ∧ t.sysRetPc = s.pc + 4 ∧ t.sysRetPml = level s ∧ pema t = .known true ∧
      (e.runPml.code.toNat ≤ s.cfg.maxPml.code.toNat ∨ e.runPml.code.toNat ≤ (level s).toNat →
        (level t).toNat = max (level s).toNat e.runPml.code.toNat) ∧
      (level t = level s ∨ ((level s).toNat < (level t).toNat ∧ level t ≠ 0b110 ∧
        (level t).toNat ≤ s.cfg.maxPml.code.toNat)) ∧ t.bank = .sys ∧
      SameRegs s t ∧ SameFlags s t ∧ SameSprs s t ∧ t.statGine = s.statGine ∧ t.statSpcp = s.statSpcp ∧
      t.roiPending = s.roiPending ∧ t.extraPending = s.extraPending ∧ t.ecode = s.ecode ∧ t.resource = s.resource ∧
      t.cfg = s.cfg ∧ SameData s t ∧ SameCode s t

/-- A system call whose table pointer has not been created, or whose number names no routine, raises INVSYS; one whose level is
not adequate clears PEMA and raises INSFPEM; ECODE receives the code and nothing else changes (decisions D16, D18, D35). -/
def Obligations.InvalidSyscallRaises : Prop :=
  ∀ (s : State) (n : Byte) (rows : List SysCallRow),
    s.cfg.sysCallTable = some rows → s.bank = .user → s.cfg.excEntryGiven = false →
    (s.sysctp = 0 → exec (.syscall n) s = .fault (.exception .invsys { s with ecode := 9 })) ∧
    (s.sysctp ≠ 0 → sysCallLookup rows s.sysctp n = none →
      exec (.syscall n) s = .fault (.exception .invsys { s with ecode := 9 })) ∧
    (∀ e, s.sysctp ≠ 0 → sysCallLookup rows s.sysctp n = some e → s.cfg.pmlImplemented = true →
      s.statPml.toNat < e.minPml.code.toNat →
      exec (.syscall n) s = .fault (.exception .insfpem { s with ecode := 0, statPema := .known false }))

/-- A system call with no table argument, a nested one, and a sysret with none outstanding are refused (decision D18). -/
def Obligations.SyscallAndSysretRefusals : Prop :=
  ∀ (s : State) (n : Byte),
    (s.cfg.sysCallTable = none → exec (.syscall n) s = .refused .noSysCallTable) ∧
    (s.cfg.sysCallTable ≠ none → s.bank = .sys → exec (.syscall n) s = .refused .nestedSysCall) ∧
    (s.bank = .user → exec .sysret s = .refused .noSysCallOutstanding)

/-- sysret: the USER bank, the saved level and the saved pc; PEMA, the flags, the registers' storage and memory are unchanged
(decisions D5 and D18). -/
def Obligations.SysretReturns : Prop :=
  ∀ s : State, s.bank = .sys →
    ∃ t, exec .sysret s = .next t ∧ t.bank = .user ∧ t.pc = s.sysRetPc ∧
      (s.cfg.pmlImplemented = true → t.statPml = s.sysRetPml) ∧ (s.cfg.pmlImplemented = false → level t = 7) ∧
      SameRegs s t ∧ SameFlags s t ∧ SameSprs s t ∧ SameHidden s t ∧ t.statPema = s.statPema ∧
      t.statGine = s.statGine ∧ t.statSpcp = s.statSpcp ∧ t.roiPending = s.roiPending ∧ t.ecode = s.ecode ∧
      t.resource = s.resource ∧ SameData s t ∧ SameCode s t

/-- A routine that comes to its sysret with the saved return state intact returns behind its syscall at the caller's level and
in the caller's bank, whatever else it did (decision D18). -/
def Obligations.SysretUndoesSyscall : Prop :=
  ∀ (s t u : State) (n : Byte), exec (.syscall n) s = .next t → s.cfg.excEntryGiven = false →
    u.cfg = s.cfg → u.bank = t.bank → u.sysRetPc = t.sysRetPc → u.sysRetPml = t.sysRetPml →
    ∃ v, exec .sysret u = .next v ∧ v.pc = s.pc + 4 ∧ level v = level s ∧ v.bank = s.bank

/-! ## Special purpose registers -/

/-- Address, register and lowest writing level of the writable system registers. -/
def writableSprs : List (Byte × Spr × Nat) :=
  [(0x02, .stat, 2), (0x04, .opcarp, 3), (0x08, .cpidtp, 4), (0x0c, .uinten, 2), (0x10, .rptinfo, 3), (0x14, .rpid, 3)]

/-- What a system register reads after a write of `v`: STAT changes in its two low bits, UINTEN's bit 15 is 0, RPID takes the
low 16 bits. -/
def afterWrite (r : Spr) (v : Word) (s : State) : Word :=
  match r with
  | .stat => (readSpr .stat s &&& 0xFFFFFFFC) ||| (v &&& 0x3)
  | .uinten => v &&& 0xFFFF7FFF
  | .rpid => v &&& 0xFFFF
  | _ => v

/-- stspr at an adequate level to a register that is not hard coded: the register reads as written, every other special
purpose register as before; no general register, flag or memory changes (levels by decision D22 for STAT and UINTEN, widths by
D21, RPID's address by D20, UINTEN's NA bit by D29). Where a base brings a supervisor register to one of these addresses the
system register answers: the model's choice, log entry 21. -/
def Obligations.StsprWritesTheRegister : Prop :=
  ∀ (s : State) (rsa : RegIx) (a : Byte) (r : Spr) (l : Nat),
    (a, r, l) ∈ writableSprs → l ≤ (level s).toNat → hardCoded s.cfg r = false →
    ∃ t, exec (.stspr rsa a) s = .next t ∧ t.pc = s.pc + 4 ∧
      readSpr r t = afterWrite r (readReg rsa s) s ∧ (∀ r', r' ≠ r → readSpr r' t = readSpr r' s) ∧
      SameRegs s t ∧ SameFlags s t ∧ t.statPema = s.statPema ∧ t.statPml = s.statPml ∧ t.bank = s.bank ∧
      SameHidden s t ∧ t.roiPending = s.roiPending ∧ t.resource = s.resource ∧ SameData s t ∧ SameCode s t

/-- stspr below the register's level, and ldspr of OPCARP below the High Supervisor Level, raise INSFPEM and write nothing but
ECODE (decisions D16, D22, D30; RPID's address by D20). Where a base brings a supervisor register to one of these addresses the
system register answers: the model's choice, log entry 21. -/
def Obligations.SprAccessNeedsTheLevel : Prop :=
  ∀ (s : State) (i : RegIx), s.cfg.excEntryGiven = false →
    (∀ (a : Byte) (r : Spr) (l : Nat), (a, r, l) ∈ writableSprs → (level s).toNat < l → hardCoded s.cfg r = false →
      exec (.stspr i a) s = .fault (.exception .insfpem { s with ecode := 0 })) ∧
    ((level s).toNat < 3 → exec (.ldspr i 0x04) s = .fault (.exception .insfpem { s with ecode := 0 }))

/-- Address, lowest reading level and value of the system registers but STAT. -/
def readableSprs (s : State) : List (Byte × Nat × Word) :=
  [(0x00, 0, BitVec.ofNat 32 s.cfg.cpurev.toNat), (0x01, 0, BitVec.ofNat 32 s.cfg.cpnum.toNat), (0x04, 3, s.opcarp),
    (0x08, 0, s.cpidtp), (0x0c, 0, s.uinten &&& 0xFFFF7FFF), (0x10, 0, s.rptinfo),
    (0x14, 0, BitVec.ofNat 32 s.rpid.toNat)]

/-- ldspr of every system register but STAT, at its level: Rd receives the value, zero-extended; nothing else changes
(decision D22 for UINTEN's level, D29 for its bit 15, which reads 0, D21 for the zero extension, D20 for RPID's address). Where
a base brings a supervisor register to one of these addresses the system register answers: the model's choice, log entry 21. -/
def Obligations.LdsprReadsTheRegister : Prop :=
  ∀ (s : State) (rd : RegIx) (a : Byte) (l : Nat) (v : Word),
    (a, l, v) ∈ readableSprs s → l ≤ (level s).toNat →
    ∃ t, exec (.ldspr rd a) s = .next t ∧ LoadEffect s t rd v

/-- ldspr of STAT at any level: `Z ++ OV ++ PEMA ++ PML ++ GINE ++ SPCP`, where a flag that holds a known value reads as it and
one that holds `any` as anything (decisions D21, D22; log entry 6). Where a base brings a supervisor register to 0x02 STAT answers:
the model's choice, log entry 21. -/
def Obligations.LdsprReadsStat : Prop :=
  ∀ (s : State) (rd : RegIx), ∃ (t : State) (v : Word),
    exec (.ldspr rd 0x02) s = .next t ∧ LoadEffect s t rd v ∧ v.toNat < 256 ∧
    (∀ b, s.statZ = .known b → v.getLsbD 7 = b) ∧ (∀ b, s.statOV = .known b → v.getLsbD 6 = b) ∧
    (∀ b, pema s = .known b → v.getLsbD 5 = b) ∧ v.extractLsb' 2 3 = level s ∧
    v.getLsbD 1 = s.statGine ∧ v.getLsbD 0 = s.statSpcp

/-- With no supervisor base given, ldspr and stspr with an address that names no register are refused, with any base the reserved
address 0x03, and so is stspr to CPUREV, CPNUM and a hard-coded pointer, at every level (decisions D19 and D21). Where a base
brings a supervisor register to the address of one of those four the system register answers, and the write is refused: the
model's choice, log entry 21. -/
def Obligations.SprRefusals : Prop :=
  ∀ (s : State) (r : RegIx) (a : Byte),
    (s.cfg.supvSprBase = none → a.toNat ∉ [0x00, 0x01, 0x02, 0x04, 0x08, 0x0c, 0x10, 0x14] →
      exec (.ldspr r a) s = .refused (.noSuchSpr a) ∧ exec (.stspr r a) s = .refused (.noSuchSpr a)) ∧
    exec (.ldspr r 0x03) s = .refused (.noSuchSpr 0x03) ∧ exec (.stspr r 0x03) s = .refused (.noSuchSpr 0x03) ∧
    exec (.stspr r 0x00) s = .refused (.hardCodedSpr 0x00) ∧
    exec (.stspr r 0x01) s = .refused (.hardCodedSpr 0x01) ∧
    (s.cfg.opcarpHardcoded = true → exec (.stspr r 0x04) s = .refused (.hardCodedSpr 0x04)) ∧
    (s.cfg.cpidtpHardcoded = true → exec (.stspr r 0x08) s = .refused (.hardCodedSpr 0x08))

/-- With a supervisor base above the system registers, each implemented supervisor register answers at base plus its Figure 3
address: ldspr reads it at any level; stspr from Low Supervisor up writes it and ldspr then reads it back, ECODE in its low byte;
no other special purpose register changes; below that level stspr raises INSFPEM (decisions D16, D19, D22). -/
def Obligations.SupervisorRegistersReadBack : Prop :=
  ∀ (s : State) (rd rsa : RegIx) (base a : Byte) (r : SupvReg),
    s.cfg.supvSprBase = some base → 0x15 ≤ base.toNat → r ∈ s.cfg.supervisorRegs → a.toNat = base.toNat + supvOffset r →
    (∃ t, exec (.ldspr rd a) s = .next t ∧ LoadEffect s t rd (readSpr (.supv r) s)) ∧
    (2 ≤ (level s).toNat →
      ∃ t u, exec (.stspr rsa a) s = .next t ∧ exec (.ldspr rd a) t = .next u ∧
        LoadEffect t u rd (if r = .ecode then readReg rsa s &&& 0xFF else readReg rsa s) ∧
        (∀ r', r' ≠ .supv r → readSpr r' t = readSpr r' s) ∧ t.pc = s.pc + 4 ∧ SameRegs s t ∧ SameFlags s t ∧
        SameStatRest s t ∧ SameHidden s t ∧ t.bank = s.bank ∧ t.roiPending = s.roiPending ∧ t.resource = s.resource ∧
        SameData s t ∧ SameCode s t) ∧
    ((level s).toNat < 2 → s.cfg.excEntryGiven = false →
      exec (.stspr rsa a) s = .fault (.exception .insfpem { s with ecode := 0 }))

/-! ## Synchronisation and permission levels -/

/-- sync changes nothing but the pc, at any level; its words under both maps, format SYS with funct 0x04 and no operands, decode
to it; it is written with no operand. -/
def Obligations.SyncOnlyAdvances : Prop :=
  decodeWord .rev02 0x80000400 = .instr .sync ∧ decodeWord .summary 0x20000400 = .instr .sync ∧
  asmLine .sync = ⟨"sync", []⟩ ∧ ∀ s : State, exec .sync s = .next { s with pc := s.pc + 4 }

/-- lock and test with a `Resource`: Rd receives the code the resource answers, lock also moves the resource state, test does
not; the data space is not touched. Without one both are refused (decision D25). -/
def Obligations.LockAndTest : Prop :=
  ∀ (s : State) (rd rsa : RegIx),
    (∀ w, s.cfg.resource = some w →
      (∃ t, exec (.lock rd rsa) s = .next t ∧ t.pc = s.pc + 4 ∧
        RegWritten s t s.bank rd (lockAnswer w s.resource (readReg rsa s)).1 ∧
        t.resource = (lockAnswer w s.resource (readReg rsa s)).2 ∧
        SameFlags s t ∧ SameStatRest s t ∧ SameSprs s t ∧ SameHidden s t ∧ t.ecode = s.ecode ∧ t.bank = s.bank ∧
        t.roiPending = s.roiPending ∧ SameCode s t ∧ SameData s t) ∧
      (∃ t, exec (.test rd rsa) s = .next t ∧
        LoadEffect s t rd (testAnswer w s.resource (readReg rsa s)))) ∧
    (s.cfg.resource = none → exec (.lock rd rsa) s = .refused .noResource ∧ exec (.test rd rsa) s = .refused .noResource)

/-- Only STAT.PML and the pc differ between the two states. -/
def OnlyLevelChanges (s t : State) (p : BitVec 3) : Prop := t = { s with statPml := p, pc := s.pc + 4 }

/-- pmd to a level that exists and is not above the current one is granted; to any other target it raises INVPR
(decisions D16, D23, D30). -/
def Obligations.PermissionDecrease : Prop :=
  ∀ (s : State) (t : Byte), s.cfg.pmlImplemented = true →
    (t.toNat ≤ s.statPml.toNat → t.toNat ≠ 6 → t.toNat ≤ s.cfg.maxPml.code.toNat →
      ∃ u, exec (.pmd t) s = .next u ∧ OnlyLevelChanges s u (BitVec.ofNat 3 t.toNat)) ∧
    (s.statPml.toNat < t.toNat ∨ t.toNat = 6 ∨ s.cfg.maxPml.code.toNat < t.toNat → s.cfg.excEntryGiven = false →
      exec (.pmd t) s = .fault (.exception .invpr { s with ecode := 10 }))

/-- pmir: to the current level it changes nothing; to a higher level that exists the given policy decides, and with no policy
it is granted or INVPR is raised; to a lower level, level 6 or a level above MAXPML it raises INVPR (decisions D16, D23, D30;
log entry 18). -/
def Obligations.PermissionIncreaseRequest : Prop :=
  ∀ (s : State) (t : Byte), s.cfg.pmlImplemented = true →
    (t.toNat = s.statPml.toNat → t.toNat ≠ 6 → t.toNat ≤ s.cfg.maxPml.code.toNat →
      exec (.pmir t) s = .next { s with pc := s.pc + 4 }) ∧
    (t.toNat < s.statPml.toNat ∨ t.toNat = 6 ∨ s.cfg.maxPml.code.toNat < t.toNat → s.cfg.excEntryGiven = false →
      exec (.pmir t) s = .fault (.exception .invpr { s with ecode := 10 })) ∧
    (s.statPml.toNat < t.toNat → t.toNat ≠ 6 → t.toNat ≤ s.cfg.maxPml.code.toNat →
      ∀ grants, s.cfg.pmirPolicy = some grants →
        ((s.statPml, BitVec.ofNat 3 t.toNat) ∈ grants →
          ∃ u, exec (.pmir t) s = .next u ∧ OnlyLevelChanges s u (BitVec.ofNat 3 t.toNat)) ∧
        ((s.statPml, BitVec.ofNat 3 t.toNat) ∉ grants → s.cfg.excEntryGiven = false →
          exec (.pmir t) s = .fault (.exception .invpr { s with ecode := 10 }))) ∧
    (s.statPml.toNat < t.toNat → t.toNat ≠ 6 → t.toNat ≤ s.cfg.maxPml.code.toNat →
      s.cfg.pmirPolicy = none → s.cfg.excEntryGiven = false →
      exec (.pmir t) s =
          .next { s with statPml := BitVec.ofNat 3 t.toNat, pc := s.pc + 4, draws := s.draws + 1 } ∨
        exec (.pmir t) s = .fault (.exception .invpr { s with ecode := 10, draws := s.draws + 1 }))

/-- Without permission levels the level reads 7 and PEMA 1 whatever was executed, and pmir and pmd complete and change
nothing but the pc (decision D23). -/
def Obligations.WithoutPermissionLevels : Prop :=
  ∀ (s : State) (t : Byte), s.cfg.pmlImplemented = false →
    level s = 7 ∧ pema s = .known true ∧
    exec (.pmir t) s = .next { s with pc := s.pc + 4 } ∧ exec (.pmd t) s = .next { s with pc := s.pc + 4 } ∧
    ∀ i u, exec i s = .next u → level u = 7 ∧ pema u = .known true

/-! ## Co-processor words, exceptions, whole-machine rules -/

/-- A co-processor word that no hardware co-processor claims, none being there or none claiming the opcode: illegal while SPCP
is 0; the CPMI interrupt, with the pc still at the word and nothing changed, while SPCP is 1 and CPMI is enabled, or, with
`IntEntry` given, the run goes on at the vector 0x0008; refused otherwise. One that is claimed, with the opcode's function
given, completes: the pc advances, and only GLBREGF, the data space and the mapped devices may differ; a claimed opcode without
its function is refused (decisions D2, D17, D36; log entries 15 and 20). -/
def Obligations.CoProcessorWords : Prop :=
  ∀ (s : State) (op : BitVec 6) (w : Word),
    (s.cfg.cpnum = 0 ∨ op ∉ s.cfg.coProcClaimed →
      (s.statSpcp = false → execCoProc op w s = .fault (.illegalInstruction none)) ∧
      (s.statSpcp = true → s.statGine = true → s.uinten.getLsbD s.cfg.uintenCpmiBit.toNat = true →
        (s.cfg.intEntryGiven = false → execCoProc op w s = .fault (.interrupt .cpmi s)) ∧
        (s.cfg.intEntryGiven = true → ∃ t, execCoProc op w s = .next t ∧ t.pc = 0x0008 ∧ t.cfg = s.cfg)) ∧
      (s.statSpcp = true → s.statGine = false ∨ s.uinten.getLsbD s.cfg.uintenCpmiBit.toNat = false →
        execCoProc op w s = .refused .cpmiNotEnabled)) ∧
    (s.cfg.cpnum ≠ 0 → op ∈ s.cfg.coProcClaimed →
      (op ∈ s.cfg.coProcExec →
        ∃ t, execCoProc op w s = .next t ∧
          t = { s with pc := s.pc + 4, glbregf := t.glbregf, dmem := t.dmem, device := t.device } ∧
          (memWf s.dmem = true → memWf t.dmem = true)) ∧
      (op ∉ s.cfg.coProcExec → execCoProc op w s = .refused .noCoProcExec))

/-- Exceptions are precise: the instruction that raises one changes ECODE, which holds the low byte of its code, and nothing
else of the core but PEMA in a refused syscall (the model's draw counter aside); and each instruction raises only the
exceptions listed for it (decisions D16 and D35). -/
def Obligations.ExceptionsArePrecise : Prop :=
  ∀ (i : Instr) (s t : State) (x : ExcCode), exec i s = .fault (.exception x t) →
    t = { s with ecode := t.ecode, statPema := t.statPema, draws := t.draws } ∧
    t.ecode.toNat = (excNumber x).toNat ∧ mayRaise i x = true ∧
    (t.statPema = s.statPema ∨ ∃ n, i = .syscall n ∧ x = .insfpem)

/-- The permission level changes only by pmir, pmd, syscall and sysret, and the bank only by syscall and sysret. -/
def Obligations.LevelAndBankChangeOnlyByTheirInstructions : Prop :=
  ∀ (i : Instr) (s t : State), exec i s = .next t → s.cfg.excEntryGiven = false →
    (changesLevel i = false → t.statPml = s.statPml ∧ level t = level s) ∧ (changesBank i = false → t.bank = s.bank)

/-- No instruction writes the instruction space, only the four stores write the data space, only loads and stores reach the mapped
devices, only the four global load immediates write GLBREGF, only the integer and immediate instructions write Z and OV
(decisions D12, D15, D31; the devices, log entry 33). -/
def Obligations.OnlyTheNamedFamiliesWrite : Prop :=
  ∀ (i : Instr) (s t : State), exec i s = .next t → s.cfg.excEntryGiven = false →
    t.imem = s.imem ∧ (isStore i = false → t.dmem = s.dmem) ∧
    (isStore i = false → isLoad i = false → t.device = s.device) ∧ (writesGlobals i = false → t.glbregf = s.glbregf) ∧
    (writesFlags i = false → SameFlags s t)

/-- No step changes the model arguments (log entry 1). -/
def Obligations.StepKeepsTheModelArguments : Prop :=
  ∀ s t : State, step s = .next t → t.cfg = s.cfg

/-- Every step keeps the invariant: both memories in canonical form, the reserved level and, where levels are implemented, one
above MAXPML never entered or saved, UINTEN's NA bit 0, register 0's storage 0, on a machine with no entry arguments (decisions
D4, D18, D23, D29; what a routine whose level does not exist runs at is log entry 16). -/
def Obligations.StepKeepsTheInvariant : Prop :=
  ∀ s t : State, Inv s → step s = .next t → Inv t

/-- The state after reset meets the invariant. That register 0's storage and `sys_ret_pml` do is the model's choice: the spec gives
neither a value at reset, and both are 0 by log entries 2 and 5. -/
def Obligations.ResetMeetsTheInvariant : Prop := Inv State.reset

/-- What reset leaves, of the values the spec gives: the pc at the Reset vector and the level the highest; GINE, SPCP, UINTEN and
SYSCTP cleared, the USER bank and nothing pending (decision D24); with those no interrupt is recognised. -/
def Obligations.ResetValues : Prop :=
  ∀ c : Config,
    (State.resetWith c).pc = 0 ∧ (State.resetWith c).statPml = c.maxPml.code ∧ (State.resetWith c).statGine = false ∧
    (State.resetWith c).statSpcp = false ∧ (State.resetWith c).uinten = 0 ∧ (State.resetWith c).sysctp = 0 ∧
    (State.resetWith c).bank = .user ∧ (State.resetWith c).roiPending = false ∧
    (State.resetWith c).extraPending = [] ∧ recognised (State.resetWith c) = none
end

