-- ==== Sys2Proof/Laws/Encoding.lean ====
section
/-! SUPPORT. Each field of each format, read back from the word the encoder writes. -/

namespace Sys2Proof

variable (m : OpMap)

@[simp] theorem opcodeOf_encodeR (rd rsa rsb : RegIx) (shft : BitVec 7) (aluop : BitVec 4) :
    opcodeOf (encodeR m rd rsa rsb shft aluop) = opcodeFor m .integer := by
  apply BitVec.eq_of_getLsbD_eq
  intro i hi
  simp only [opcodeOf, encodeR, BitVec.getLsbD_extractLsb', BitVec.getLsbD_append]
  interval_cases i <;> simp

@[simp] theorem rdOf_encodeR (rd rsa rsb : RegIx) (shft : BitVec 7) (aluop : BitVec 4) :
    rdOf (encodeR m rd rsa rsb shft aluop) = rd := by
  apply BitVec.eq_of_getLsbD_eq
  intro i hi
  simp only [rdOf, encodeR, BitVec.getLsbD_extractLsb', BitVec.getLsbD_append]
  interval_cases i <;> simp

@[simp] theorem rsaOf_encodeR (rd rsa rsb : RegIx) (shft : BitVec 7) (aluop : BitVec 4) :
    rsaOf (encodeR m rd rsa rsb shft aluop) = rsa := by
  apply BitVec.eq_of_getLsbD_eq
  intro i hi
  simp only [rsaOf, encodeR, BitVec.getLsbD_extractLsb', BitVec.getLsbD_append]
  interval_cases i <;> simp

@[simp] theorem rsbOf_encodeR (rd rsa rsb : RegIx) (shft : BitVec 7) (aluop : BitVec 4) :
    rsbOf (encodeR m rd rsa rsb shft aluop) = rsb := by
  apply BitVec.eq_of_getLsbD_eq
  intro i hi
  simp only [rsbOf, encodeR, BitVec.getLsbD_extractLsb', BitVec.getLsbD_append]
  interval_cases i <;> simp

@[simp] theorem shftOf_encodeR (rd rsa rsb : RegIx) (shft : BitVec 7) (aluop : BitVec 4) :
    shftOf (encodeR m rd rsa rsb shft aluop) = shft := by
  apply BitVec.eq_of_getLsbD_eq
  intro i hi
  simp only [shftOf, encodeR, BitVec.getLsbD_extractLsb', BitVec.getLsbD_append]
  interval_cases i <;> simp

@[simp] theorem aluopOf_encodeR (rd rsa rsb : RegIx) (shft : BitVec 7) (aluop : BitVec 4) :
    aluopOf (encodeR m rd rsa rsb shft aluop) = aluop := by
  apply BitVec.eq_of_getLsbD_eq
  intro i hi
  simp only [aluopOf, encodeR, BitVec.getLsbD_extractLsb', BitVec.getLsbD_append]
  interval_cases i <;> simp

@[simp] theorem opcodeOf_encodeI (rd rsa : RegIx) (imm : BitVec 12) (aluop : BitVec 4) :
    opcodeOf (encodeI m rd rsa imm aluop) = opcodeFor m .immediate := by
  apply BitVec.eq_of_getLsbD_eq
  intro i hi
  simp only [opcodeOf, encodeI, BitVec.getLsbD_extractLsb', BitVec.getLsbD_append]
  interval_cases i <;> simp

@[simp] theorem rdOf_encodeI (rd rsa : RegIx) (imm : BitVec 12) (aluop : BitVec 4) :
    rdOf (encodeI m rd rsa imm aluop) = rd := by
  apply BitVec.eq_of_getLsbD_eq
  intro i hi
  simp only [rdOf, encodeI, BitVec.getLsbD_extractLsb', BitVec.getLsbD_append]
  interval_cases i <;> simp

@[simp] theorem rsaOf_encodeI (rd rsa : RegIx) (imm : BitVec 12) (aluop : BitVec 4) :
    rsaOf (encodeI m rd rsa imm aluop) = rsa := by
  apply BitVec.eq_of_getLsbD_eq
  intro i hi
  simp only [rsaOf, encodeI, BitVec.getLsbD_extractLsb', BitVec.getLsbD_append]
  interval_cases i <;> simp

@[simp] theorem imm12Of_encodeI (rd rsa : RegIx) (imm : BitVec 12) (aluop : BitVec 4) :
    imm12Of (encodeI m rd rsa imm aluop) = imm := by
  apply BitVec.eq_of_getLsbD_eq
  intro i hi
  simp only [imm12Of, encodeI, BitVec.getLsbD_extractLsb', BitVec.getLsbD_append]
  interval_cases i <;> simp

@[simp] theorem aluopOf_encodeI (rd rsa : RegIx) (imm : BitVec 12) (aluop : BitVec 4) :
    aluopOf (encodeI m rd rsa imm aluop) = aluop := by
  apply BitVec.eq_of_getLsbD_eq
  intro i hi
  simp only [aluopOf, encodeI, BitVec.getLsbD_extractLsb', BitVec.getLsbD_append]
  interval_cases i <;> simp

@[simp] theorem opcodeOf_encodeL (rd rsa : RegIx) (funct : BitVec 2) (imm : BitVec 14) :
    opcodeOf (encodeL m rd rsa funct imm) = opcodeFor m .load := by
  apply BitVec.eq_of_getLsbD_eq
  intro i hi
  simp only [opcodeOf, encodeL, BitVec.getLsbD_extractLsb', BitVec.getLsbD_append]
  interval_cases i <;> simp

@[simp] theorem rdOf_encodeL (rd rsa : RegIx) (funct : BitVec 2) (imm : BitVec 14) :
    rdOf (encodeL m rd rsa funct imm) = rd := by
  apply BitVec.eq_of_getLsbD_eq
  intro i hi
  simp only [rdOf, encodeL, BitVec.getLsbD_extractLsb', BitVec.getLsbD_append]
  interval_cases i <;> simp

@[simp] theorem rsaOf_encodeL (rd rsa : RegIx) (funct : BitVec 2) (imm : BitVec 14) :
    rsaOf (encodeL m rd rsa funct imm) = rsa := by
  apply BitVec.eq_of_getLsbD_eq
  intro i hi
  simp only [rsaOf, encodeL, BitVec.getLsbD_extractLsb', BitVec.getLsbD_append]
  interval_cases i <;> simp

@[simp] theorem loadFunctOf_encodeL (rd rsa : RegIx) (funct : BitVec 2) (imm : BitVec 14) :
    loadFunctOf (encodeL m rd rsa funct imm) = funct := by
  apply BitVec.eq_of_getLsbD_eq
  intro i hi
  simp only [loadFunctOf, encodeL, BitVec.getLsbD_extractLsb', BitVec.getLsbD_append]
  interval_cases i <;> simp

@[simp] theorem loadImmOf_encodeL (rd rsa : RegIx) (funct : BitVec 2) (imm : BitVec 14) :
    loadImmOf (encodeL m rd rsa funct imm) = imm := by
  apply BitVec.eq_of_getLsbD_eq
  intro i hi
  simp only [loadImmOf, encodeL, BitVec.getLsbD_extractLsb', BitVec.getLsbD_append]
  interval_cases i <;> simp

@[simp] theorem opcodeOf_encodeLI (rd : RegIx) (dsel : BitVec 5) (imm : BitVec 16) :
    opcodeOf (encodeLI m rd dsel imm) = opcodeFor m .loadImmediate := by
  apply BitVec.eq_of_getLsbD_eq
  intro i hi
  simp only [opcodeOf, encodeLI, BitVec.getLsbD_extractLsb', BitVec.getLsbD_append]
  interval_cases i <;> simp

@[simp] theorem rdOf_encodeLI (rd : RegIx) (dsel : BitVec 5) (imm : BitVec 16) :
    rdOf (encodeLI m rd dsel imm) = rd := by
  apply BitVec.eq_of_getLsbD_eq
  intro i hi
  simp only [rdOf, encodeLI, BitVec.getLsbD_extractLsb', BitVec.getLsbD_append]
  interval_cases i <;> simp

@[simp] theorem dselOf_encodeLI (rd : RegIx) (dsel : BitVec 5) (imm : BitVec 16) :
    dselOf (encodeLI m rd dsel imm) = dsel := by
  apply BitVec.eq_of_getLsbD_eq
  intro i hi
  simp only [dselOf, encodeLI, BitVec.getLsbD_extractLsb', BitVec.getLsbD_append]
  interval_cases i <;> simp

@[simp] theorem imm16Of_encodeLI (rd : RegIx) (dsel : BitVec 5) (imm : BitVec 16) :
    imm16Of (encodeLI m rd dsel imm) = imm := by
  apply BitVec.eq_of_getLsbD_eq
  intro i hi
  simp only [imm16Of, encodeLI, BitVec.getLsbD_extractLsb', BitVec.getLsbD_append]
  interval_cases i <;> simp

@[simp] theorem opcodeOf_encodeS (funct : BitVec 2) (rsb rsa : RegIx) (imm : BitVec 14) :
    opcodeOf (encodeS m funct rsb rsa imm) = opcodeFor m .store := by
  apply BitVec.eq_of_getLsbD_eq
  intro i hi
  simp only [opcodeOf, encodeS, BitVec.getLsbD_extractLsb', BitVec.getLsbD_append]
  interval_cases i <;> simp

@[simp] theorem storeFunctOf_encodeS (funct : BitVec 2) (rsb rsa : RegIx) (imm : BitVec 14) :
    storeFunctOf (encodeS m funct rsb rsa imm) = funct := by
  apply BitVec.eq_of_getLsbD_eq
  intro i hi
  simp only [storeFunctOf, encodeS, BitVec.getLsbD_extractLsb', BitVec.getLsbD_append]
  interval_cases i <;> simp

@[simp] theorem rsaOf_encodeS (funct : BitVec 2) (rsb rsa : RegIx) (imm : BitVec 14) :
    rsaOf (encodeS m funct rsb rsa imm) = rsa := by
  apply BitVec.eq_of_getLsbD_eq
  intro i hi
  simp only [rsaOf, encodeS, BitVec.getLsbD_extractLsb', BitVec.getLsbD_append]
  interval_cases i <;> simp

@[simp] theorem rsbOf_encodeS (funct : BitVec 2) (rsb rsa : RegIx) (imm : BitVec 14) :
    rsbOf (encodeS m funct rsb rsa imm) = rsb := by
  apply BitVec.eq_of_getLsbD_eq
  intro i hi
  simp only [rsbOf, encodeS, BitVec.getLsbD_extractLsb', BitVec.getLsbD_append]
  interval_cases i <;> simp

@[simp] theorem storeImmOf_encodeS (funct : BitVec 2) (rsb rsa : RegIx) (imm : BitVec 14) :
    storeImmOf (encodeS m funct rsb rsa imm) = imm := by
  apply BitVec.eq_of_getLsbD_eq
  intro i hi
  simp only [storeImmOf, encodeS, BitVec.getLsbD_extractLsb', BitVec.getLsbD_append]
  interval_cases i <;> simp

@[simp] theorem opcodeOf_encodeJ (c : OpClass) (rsa : RegIx) (imm : BitVec 21) :
    opcodeOf (encodeJ m c rsa imm) = opcodeFor m c := by
  apply BitVec.eq_of_getLsbD_eq
  intro i hi
  simp only [opcodeOf, encodeJ, BitVec.getLsbD_extractLsb', BitVec.getLsbD_append]
  interval_cases i <;> simp

@[simp] theorem rsaOf_encodeJ (c : OpClass) (rsa : RegIx) (imm : BitVec 21) :
    rsaOf (encodeJ m c rsa imm) = rsa := by
  apply BitVec.eq_of_getLsbD_eq
  intro i hi
  simp only [rsaOf, encodeJ, BitVec.getLsbD_extractLsb', BitVec.getLsbD_append]
  interval_cases i <;> simp

@[simp] theorem imm21Of_encodeJ (c : OpClass) (rsa : RegIx) (imm : BitVec 21) :
    imm21Of (encodeJ m c rsa imm) = imm := by
  apply BitVec.eq_of_getLsbD_eq
  intro i hi
  simp only [imm21Of, encodeJ, BitVec.getLsbD_extractLsb', BitVec.getLsbD_append]
  interval_cases i <;> simp

@[simp] theorem opcodeOf_encodeB (rsa rsb : RegIx) (imm : BitVec 14) (funct : BitVec 2) :
    opcodeOf (encodeB m rsa rsb imm funct) = opcodeFor m .branch := by
  apply BitVec.eq_of_getLsbD_eq
  intro i hi
  simp only [opcodeOf, encodeB, BitVec.getLsbD_extractLsb', BitVec.getLsbD_append]
  interval_cases i <;> simp

@[simp] theorem rsaOf_encodeB (rsa rsb : RegIx) (imm : BitVec 14) (funct : BitVec 2) :
    rsaOf (encodeB m rsa rsb imm funct) = rsa := by
  apply BitVec.eq_of_getLsbD_eq
  intro i hi
  simp only [rsaOf, encodeB, BitVec.getLsbD_extractLsb', BitVec.getLsbD_append]
  interval_cases i <;> simp

@[simp] theorem rsbOf_encodeB (rsa rsb : RegIx) (imm : BitVec 14) (funct : BitVec 2) :
    rsbOf (encodeB m rsa rsb imm funct) = rsb := by
  apply BitVec.eq_of_getLsbD_eq
  intro i hi
  simp only [rsbOf, encodeB, BitVec.getLsbD_extractLsb', BitVec.getLsbD_append]
  interval_cases i <;> simp

@[simp] theorem branchImmOf_encodeB (rsa rsb : RegIx) (imm : BitVec 14) (funct : BitVec 2) :
    branchImmOf (encodeB m rsa rsb imm funct) = imm := by
  apply BitVec.eq_of_getLsbD_eq
  intro i hi
  simp only [branchImmOf, encodeB, BitVec.getLsbD_extractLsb', BitVec.getLsbD_append]
  interval_cases i <;> simp

@[simp] theorem branchFunctOf_encodeB (rsa rsb : RegIx) (imm : BitVec 14) (funct : BitVec 2) :
    branchFunctOf (encodeB m rsa rsb imm funct) = funct := by
  apply BitVec.eq_of_getLsbD_eq
  intro i hi
  simp only [branchFunctOf, encodeB, BitVec.getLsbD_extractLsb', BitVec.getLsbD_append]
  interval_cases i <;> simp

@[simp] theorem opcodeOf_encodeSys (rd rsa : RegIx) (funct : BitVec 8) (imm : BitVec 8) :
    opcodeOf (encodeSys m rd rsa funct imm) = opcodeFor m .system := by
  apply BitVec.eq_of_getLsbD_eq
  intro i hi
  simp only [opcodeOf, encodeSys, BitVec.getLsbD_extractLsb', BitVec.getLsbD_append]
  interval_cases i <;> simp

@[simp] theorem rdOf_encodeSys (rd rsa : RegIx) (funct : BitVec 8) (imm : BitVec 8) :
    rdOf (encodeSys m rd rsa funct imm) = rd := by
  apply BitVec.eq_of_getLsbD_eq
  intro i hi
  simp only [rdOf, encodeSys, BitVec.getLsbD_extractLsb', BitVec.getLsbD_append]
  interval_cases i <;> simp

@[simp] theorem rsaOf_encodeSys (rd rsa : RegIx) (funct : BitVec 8) (imm : BitVec 8) :
    rsaOf (encodeSys m rd rsa funct imm) = rsa := by
  apply BitVec.eq_of_getLsbD_eq
  intro i hi
  simp only [rsaOf, encodeSys, BitVec.getLsbD_extractLsb', BitVec.getLsbD_append]
  interval_cases i <;> simp

@[simp] theorem sysFunctOf_encodeSys (rd rsa : RegIx) (funct : BitVec 8) (imm : BitVec 8) :
    sysFunctOf (encodeSys m rd rsa funct imm) = funct := by
  apply BitVec.eq_of_getLsbD_eq
  intro i hi
  simp only [sysFunctOf, encodeSys, BitVec.getLsbD_extractLsb', BitVec.getLsbD_append]
  interval_cases i <;> simp

@[simp] theorem imm8Of_encodeSys (rd rsa : RegIx) (funct : BitVec 8) (imm : BitVec 8) :
    imm8Of (encodeSys m rd rsa funct imm) = imm := by
  apply BitVec.eq_of_getLsbD_eq
  intro i hi
  simp only [imm8Of, encodeSys, BitVec.getLsbD_extractLsb', BitVec.getLsbD_append]
  interval_cases i <;> simp

/-- The opcode of every class but the co-processor's leads back to the class. -/
theorem classOf_opcodeFor (c : OpClass) : classOf m (opcodeFor m c) = some c := by
  cases m <;> cases c <;> rfl

end Sys2Proof
end

