-- ==== Sys2Proof/Laws/State.lean ====
section
/-! SUPPORT. What each shared update of the state does to each field: one lemma per field, so that no proof unfolds a record
update. -/

namespace Sys2Proof.Machine

variable (s : State)

/-- A register write as one record update: register 0 and the bank's home decided inside. -/
theorem writeBank_eq (b : Bank) (i : RegIx) (v : Word) :
    writeBank b i v s =
      { s with
        gpregf := if i = 0 then s.gpregf else if homeIsGp s.cfg b i then fileSet s.gpregf i v else s.gpregf,
        sysregf := if i = 0 then s.sysregf else if homeIsGp s.cfg b i then s.sysregf else fileSet s.sysregf i v } := by
  unfold writeBank
  split
  · rfl
  · split <;> rfl

/-- A level write as one record update. -/
theorem setLevel_eq (p : BitVec 3) :
    setLevel p s = { s with statPml := if s.cfg.pmlImplemented then p else s.statPml } := by
  unfold setLevel
  split <;> rfl

/-- A PEMA write as one record update. -/
theorem setPema_eq (v : Bool) :
    setPema v s = { s with statPema := if s.cfg.pmlImplemented then .known v else s.statPema } := by
  unfold setPema
  split <;> rfl

/-! ## setPc -/

@[simp] theorem setPc_cfg (t : Word) : (setPc t s).cfg = s.cfg := rfl
@[simp] theorem setPc_pc (t : Word) : (setPc t s).pc = t := rfl
@[simp] theorem setPc_gpregf (t : Word) : (setPc t s).gpregf = s.gpregf := rfl
@[simp] theorem setPc_sysregf (t : Word) : (setPc t s).sysregf = s.sysregf := rfl
@[simp] theorem setPc_glbregf (t : Word) : (setPc t s).glbregf = s.glbregf := rfl
@[simp] theorem setPc_bank (t : Word) : (setPc t s).bank = s.bank := rfl
@[simp] theorem setPc_statZ (t : Word) : (setPc t s).statZ = s.statZ := rfl
@[simp] theorem setPc_statOV (t : Word) : (setPc t s).statOV = s.statOV := rfl
@[simp] theorem setPc_statPema (t : Word) : (setPc t s).statPema = s.statPema := rfl
@[simp] theorem setPc_statPml (t : Word) : (setPc t s).statPml = s.statPml := rfl
@[simp] theorem setPc_statGine (t : Word) : (setPc t s).statGine = s.statGine := rfl
@[simp] theorem setPc_statSpcp (t : Word) : (setPc t s).statSpcp = s.statSpcp := rfl
@[simp] theorem setPc_opcarp (t : Word) : (setPc t s).opcarp = s.opcarp := rfl
@[simp] theorem setPc_cpidtp (t : Word) : (setPc t s).cpidtp = s.cpidtp := rfl
@[simp] theorem setPc_uinten (t : Word) : (setPc t s).uinten = s.uinten := rfl
@[simp] theorem setPc_rptinfo (t : Word) : (setPc t s).rptinfo = s.rptinfo := rfl
@[simp] theorem setPc_rpid (t : Word) : (setPc t s).rpid = s.rpid := rfl
@[simp] theorem setPc_smstat (t : Word) : (setPc t s).smstat = s.smstat := rfl
@[simp] theorem setPc_rpcpr0 (t : Word) : (setPc t s).rpcpr0 = s.rpcpr0 := rfl
@[simp] theorem setPc_rpitp (t : Word) : (setPc t s).rpitp = s.rpitp := rfl
@[simp] theorem setPc_htinfop (t : Word) : (setPc t s).htinfop = s.htinfop := rfl
@[simp] theorem setPc_htctlp (t : Word) : (setPc t s).htctlp = s.htctlp := rfl
@[simp] theorem setPc_ecode (t : Word) : (setPc t s).ecode = s.ecode := rfl
@[simp] theorem setPc_sysctp (t : Word) : (setPc t s).sysctp = s.sysctp := rfl
@[simp] theorem setPc_sysRetPc (t : Word) : (setPc t s).sysRetPc = s.sysRetPc := rfl
@[simp] theorem setPc_sysRetPml (t : Word) : (setPc t s).sysRetPml = s.sysRetPml := rfl
@[simp] theorem setPc_roiPending (t : Word) : (setPc t s).roiPending = s.roiPending := rfl
@[simp] theorem setPc_extraPending (t : Word) : (setPc t s).extraPending = s.extraPending := rfl
@[simp] theorem setPc_resource (t : Word) : (setPc t s).resource = s.resource := rfl
@[simp] theorem setPc_device (t : Word) : (setPc t s).device = s.device := rfl
@[simp] theorem setPc_imem (t : Word) : (setPc t s).imem = s.imem := rfl
@[simp] theorem setPc_dmem (t : Word) : (setPc t s).dmem = s.dmem := rfl
@[simp] theorem setPc_draws (t : Word) : (setPc t s).draws = s.draws := rfl

/-! ## advance -/

@[simp] theorem advance_cfg : (advance s).cfg = s.cfg := rfl
@[simp] theorem advance_pc : (advance s).pc = s.pc + 4 := rfl
@[simp] theorem advance_gpregf : (advance s).gpregf = s.gpregf := rfl
@[simp] theorem advance_sysregf : (advance s).sysregf = s.sysregf := rfl
@[simp] theorem advance_glbregf : (advance s).glbregf = s.glbregf := rfl
@[simp] theorem advance_bank : (advance s).bank = s.bank := rfl
@[simp] theorem advance_statZ : (advance s).statZ = s.statZ := rfl
@[simp] theorem advance_statOV : (advance s).statOV = s.statOV := rfl
@[simp] theorem advance_statPema : (advance s).statPema = s.statPema := rfl
@[simp] theorem advance_statPml : (advance s).statPml = s.statPml := rfl
@[simp] theorem advance_statGine : (advance s).statGine = s.statGine := rfl
@[simp] theorem advance_statSpcp : (advance s).statSpcp = s.statSpcp := rfl
@[simp] theorem advance_opcarp : (advance s).opcarp = s.opcarp := rfl
@[simp] theorem advance_cpidtp : (advance s).cpidtp = s.cpidtp := rfl
@[simp] theorem advance_uinten : (advance s).uinten = s.uinten := rfl
@[simp] theorem advance_rptinfo : (advance s).rptinfo = s.rptinfo := rfl
@[simp] theorem advance_rpid : (advance s).rpid = s.rpid := rfl
@[simp] theorem advance_smstat : (advance s).smstat = s.smstat := rfl
@[simp] theorem advance_rpcpr0 : (advance s).rpcpr0 = s.rpcpr0 := rfl
@[simp] theorem advance_rpitp : (advance s).rpitp = s.rpitp := rfl
@[simp] theorem advance_htinfop : (advance s).htinfop = s.htinfop := rfl
@[simp] theorem advance_htctlp : (advance s).htctlp = s.htctlp := rfl
@[simp] theorem advance_ecode : (advance s).ecode = s.ecode := rfl
@[simp] theorem advance_sysctp : (advance s).sysctp = s.sysctp := rfl
@[simp] theorem advance_sysRetPc : (advance s).sysRetPc = s.sysRetPc := rfl
@[simp] theorem advance_sysRetPml : (advance s).sysRetPml = s.sysRetPml := rfl
@[simp] theorem advance_roiPending : (advance s).roiPending = s.roiPending := rfl
@[simp] theorem advance_extraPending : (advance s).extraPending = s.extraPending := rfl
@[simp] theorem advance_resource : (advance s).resource = s.resource := rfl
@[simp] theorem advance_device : (advance s).device = s.device := rfl
@[simp] theorem advance_imem : (advance s).imem = s.imem := rfl
@[simp] theorem advance_dmem : (advance s).dmem = s.dmem := rfl
@[simp] theorem advance_draws : (advance s).draws = s.draws := rfl

/-! ## writeGlobal -/

@[simp] theorem writeGlobal_cfg (i : RegIx) (v : Word) : (writeGlobal i v s).cfg = s.cfg := rfl
@[simp] theorem writeGlobal_pc (i : RegIx) (v : Word) : (writeGlobal i v s).pc = s.pc := rfl
@[simp] theorem writeGlobal_gpregf (i : RegIx) (v : Word) : (writeGlobal i v s).gpregf = s.gpregf := rfl
@[simp] theorem writeGlobal_sysregf (i : RegIx) (v : Word) : (writeGlobal i v s).sysregf = s.sysregf := rfl
@[simp] theorem writeGlobal_glbregf (i : RegIx) (v : Word) : (writeGlobal i v s).glbregf = fileSet s.glbregf i v := rfl
@[simp] theorem writeGlobal_bank (i : RegIx) (v : Word) : (writeGlobal i v s).bank = s.bank := rfl
@[simp] theorem writeGlobal_statZ (i : RegIx) (v : Word) : (writeGlobal i v s).statZ = s.statZ := rfl
@[simp] theorem writeGlobal_statOV (i : RegIx) (v : Word) : (writeGlobal i v s).statOV = s.statOV := rfl
@[simp] theorem writeGlobal_statPema (i : RegIx) (v : Word) : (writeGlobal i v s).statPema = s.statPema := rfl
@[simp] theorem writeGlobal_statPml (i : RegIx) (v : Word) : (writeGlobal i v s).statPml = s.statPml := rfl
@[simp] theorem writeGlobal_statGine (i : RegIx) (v : Word) : (writeGlobal i v s).statGine = s.statGine := rfl
@[simp] theorem writeGlobal_statSpcp (i : RegIx) (v : Word) : (writeGlobal i v s).statSpcp = s.statSpcp := rfl
@[simp] theorem writeGlobal_opcarp (i : RegIx) (v : Word) : (writeGlobal i v s).opcarp = s.opcarp := rfl
@[simp] theorem writeGlobal_cpidtp (i : RegIx) (v : Word) : (writeGlobal i v s).cpidtp = s.cpidtp := rfl
@[simp] theorem writeGlobal_uinten (i : RegIx) (v : Word) : (writeGlobal i v s).uinten = s.uinten := rfl
@[simp] theorem writeGlobal_rptinfo (i : RegIx) (v : Word) : (writeGlobal i v s).rptinfo = s.rptinfo := rfl
@[simp] theorem writeGlobal_rpid (i : RegIx) (v : Word) : (writeGlobal i v s).rpid = s.rpid := rfl
@[simp] theorem writeGlobal_smstat (i : RegIx) (v : Word) : (writeGlobal i v s).smstat = s.smstat := rfl
@[simp] theorem writeGlobal_rpcpr0 (i : RegIx) (v : Word) : (writeGlobal i v s).rpcpr0 = s.rpcpr0 := rfl
@[simp] theorem writeGlobal_rpitp (i : RegIx) (v : Word) : (writeGlobal i v s).rpitp = s.rpitp := rfl
@[simp] theorem writeGlobal_htinfop (i : RegIx) (v : Word) : (writeGlobal i v s).htinfop = s.htinfop := rfl
@[simp] theorem writeGlobal_htctlp (i : RegIx) (v : Word) : (writeGlobal i v s).htctlp = s.htctlp := rfl
@[simp] theorem writeGlobal_ecode (i : RegIx) (v : Word) : (writeGlobal i v s).ecode = s.ecode := rfl
@[simp] theorem writeGlobal_sysctp (i : RegIx) (v : Word) : (writeGlobal i v s).sysctp = s.sysctp := rfl
@[simp] theorem writeGlobal_sysRetPc (i : RegIx) (v : Word) : (writeGlobal i v s).sysRetPc = s.sysRetPc := rfl
@[simp] theorem writeGlobal_sysRetPml (i : RegIx) (v : Word) : (writeGlobal i v s).sysRetPml = s.sysRetPml := rfl
@[simp] theorem writeGlobal_roiPending (i : RegIx) (v : Word) : (writeGlobal i v s).roiPending = s.roiPending := rfl
@[simp] theorem writeGlobal_extraPending (i : RegIx) (v : Word) : (writeGlobal i v s).extraPending = s.extraPending := rfl
@[simp] theorem writeGlobal_resource (i : RegIx) (v : Word) : (writeGlobal i v s).resource = s.resource := rfl
@[simp] theorem writeGlobal_device (i : RegIx) (v : Word) : (writeGlobal i v s).device = s.device := rfl
@[simp] theorem writeGlobal_imem (i : RegIx) (v : Word) : (writeGlobal i v s).imem = s.imem := rfl
@[simp] theorem writeGlobal_dmem (i : RegIx) (v : Word) : (writeGlobal i v s).dmem = s.dmem := rfl
@[simp] theorem writeGlobal_draws (i : RegIx) (v : Word) : (writeGlobal i v s).draws = s.draws := rfl

/-! ## recordException -/

@[simp] theorem recordException_cfg (x : ExcCode) : (recordException x s).cfg = s.cfg := rfl
@[simp] theorem recordException_pc (x : ExcCode) : (recordException x s).pc = s.pc := rfl
@[simp] theorem recordException_gpregf (x : ExcCode) : (recordException x s).gpregf = s.gpregf := rfl
@[simp] theorem recordException_sysregf (x : ExcCode) : (recordException x s).sysregf = s.sysregf := rfl
@[simp] theorem recordException_glbregf (x : ExcCode) : (recordException x s).glbregf = s.glbregf := rfl
@[simp] theorem recordException_bank (x : ExcCode) : (recordException x s).bank = s.bank := rfl
@[simp] theorem recordException_statZ (x : ExcCode) : (recordException x s).statZ = s.statZ := rfl
@[simp] theorem recordException_statOV (x : ExcCode) : (recordException x s).statOV = s.statOV := rfl
@[simp] theorem recordException_statPema (x : ExcCode) : (recordException x s).statPema = s.statPema := rfl
@[simp] theorem recordException_statPml (x : ExcCode) : (recordException x s).statPml = s.statPml := rfl
@[simp] theorem recordException_statGine (x : ExcCode) : (recordException x s).statGine = s.statGine := rfl
@[simp] theorem recordException_statSpcp (x : ExcCode) : (recordException x s).statSpcp = s.statSpcp := rfl
@[simp] theorem recordException_opcarp (x : ExcCode) : (recordException x s).opcarp = s.opcarp := rfl
@[simp] theorem recordException_cpidtp (x : ExcCode) : (recordException x s).cpidtp = s.cpidtp := rfl
@[simp] theorem recordException_uinten (x : ExcCode) : (recordException x s).uinten = s.uinten := rfl
@[simp] theorem recordException_rptinfo (x : ExcCode) : (recordException x s).rptinfo = s.rptinfo := rfl
@[simp] theorem recordException_rpid (x : ExcCode) : (recordException x s).rpid = s.rpid := rfl
@[simp] theorem recordException_smstat (x : ExcCode) : (recordException x s).smstat = s.smstat := rfl
@[simp] theorem recordException_rpcpr0 (x : ExcCode) : (recordException x s).rpcpr0 = s.rpcpr0 := rfl
@[simp] theorem recordException_rpitp (x : ExcCode) : (recordException x s).rpitp = s.rpitp := rfl
@[simp] theorem recordException_htinfop (x : ExcCode) : (recordException x s).htinfop = s.htinfop := rfl
@[simp] theorem recordException_htctlp (x : ExcCode) : (recordException x s).htctlp = s.htctlp := rfl
@[simp] theorem recordException_ecode (x : ExcCode) : (recordException x s).ecode = (excNumber x).setWidth 8 := rfl
@[simp] theorem recordException_sysctp (x : ExcCode) : (recordException x s).sysctp = s.sysctp := rfl
@[simp] theorem recordException_sysRetPc (x : ExcCode) : (recordException x s).sysRetPc = s.sysRetPc := rfl
@[simp] theorem recordException_sysRetPml (x : ExcCode) : (recordException x s).sysRetPml = s.sysRetPml := rfl
@[simp] theorem recordException_roiPending (x : ExcCode) : (recordException x s).roiPending = s.roiPending := rfl
@[simp] theorem recordException_extraPending (x : ExcCode) : (recordException x s).extraPending = s.extraPending := rfl
@[simp] theorem recordException_resource (x : ExcCode) : (recordException x s).resource = s.resource := rfl
@[simp] theorem recordException_device (x : ExcCode) : (recordException x s).device = s.device := rfl
@[simp] theorem recordException_imem (x : ExcCode) : (recordException x s).imem = s.imem := rfl
@[simp] theorem recordException_dmem (x : ExcCode) : (recordException x s).dmem = s.dmem := rfl
@[simp] theorem recordException_draws (x : ExcCode) : (recordException x s).draws = s.draws := rfl

/-! ## loadWordAtPc -/

@[simp] theorem loadWordAtPc_cfg (w : Word) : (loadWordAtPc w s).cfg = s.cfg := rfl
@[simp] theorem loadWordAtPc_pc (w : Word) : (loadWordAtPc w s).pc = s.pc := rfl
@[simp] theorem loadWordAtPc_gpregf (w : Word) : (loadWordAtPc w s).gpregf = s.gpregf := rfl
@[simp] theorem loadWordAtPc_sysregf (w : Word) : (loadWordAtPc w s).sysregf = s.sysregf := rfl
@[simp] theorem loadWordAtPc_glbregf (w : Word) : (loadWordAtPc w s).glbregf = s.glbregf := rfl
@[simp] theorem loadWordAtPc_bank (w : Word) : (loadWordAtPc w s).bank = s.bank := rfl
@[simp] theorem loadWordAtPc_statZ (w : Word) : (loadWordAtPc w s).statZ = s.statZ := rfl
@[simp] theorem loadWordAtPc_statOV (w : Word) : (loadWordAtPc w s).statOV = s.statOV := rfl
@[simp] theorem loadWordAtPc_statPema (w : Word) : (loadWordAtPc w s).statPema = s.statPema := rfl
@[simp] theorem loadWordAtPc_statPml (w : Word) : (loadWordAtPc w s).statPml = s.statPml := rfl
@[simp] theorem loadWordAtPc_statGine (w : Word) : (loadWordAtPc w s).statGine = s.statGine := rfl
@[simp] theorem loadWordAtPc_statSpcp (w : Word) : (loadWordAtPc w s).statSpcp = s.statSpcp := rfl
@[simp] theorem loadWordAtPc_opcarp (w : Word) : (loadWordAtPc w s).opcarp = s.opcarp := rfl
@[simp] theorem loadWordAtPc_cpidtp (w : Word) : (loadWordAtPc w s).cpidtp = s.cpidtp := rfl
@[simp] theorem loadWordAtPc_uinten (w : Word) : (loadWordAtPc w s).uinten = s.uinten := rfl
@[simp] theorem loadWordAtPc_rptinfo (w : Word) : (loadWordAtPc w s).rptinfo = s.rptinfo := rfl
@[simp] theorem loadWordAtPc_rpid (w : Word) : (loadWordAtPc w s).rpid = s.rpid := rfl
@[simp] theorem loadWordAtPc_smstat (w : Word) : (loadWordAtPc w s).smstat = s.smstat := rfl
@[simp] theorem loadWordAtPc_rpcpr0 (w : Word) : (loadWordAtPc w s).rpcpr0 = s.rpcpr0 := rfl
@[simp] theorem loadWordAtPc_rpitp (w : Word) : (loadWordAtPc w s).rpitp = s.rpitp := rfl
@[simp] theorem loadWordAtPc_htinfop (w : Word) : (loadWordAtPc w s).htinfop = s.htinfop := rfl
@[simp] theorem loadWordAtPc_htctlp (w : Word) : (loadWordAtPc w s).htctlp = s.htctlp := rfl
@[simp] theorem loadWordAtPc_ecode (w : Word) : (loadWordAtPc w s).ecode = s.ecode := rfl
@[simp] theorem loadWordAtPc_sysctp (w : Word) : (loadWordAtPc w s).sysctp = s.sysctp := rfl
@[simp] theorem loadWordAtPc_sysRetPc (w : Word) : (loadWordAtPc w s).sysRetPc = s.sysRetPc := rfl
@[simp] theorem loadWordAtPc_sysRetPml (w : Word) : (loadWordAtPc w s).sysRetPml = s.sysRetPml := rfl
@[simp] theorem loadWordAtPc_roiPending (w : Word) : (loadWordAtPc w s).roiPending = s.roiPending := rfl
@[simp] theorem loadWordAtPc_extraPending (w : Word) : (loadWordAtPc w s).extraPending = s.extraPending := rfl
@[simp] theorem loadWordAtPc_resource (w : Word) : (loadWordAtPc w s).resource = s.resource := rfl
@[simp] theorem loadWordAtPc_device (w : Word) : (loadWordAtPc w s).device = s.device := rfl
@[simp] theorem loadWordAtPc_imem (w : Word) : (loadWordAtPc w s).imem = placeBytes s.imem s.pc (bytesOfWord w) := rfl
@[simp] theorem loadWordAtPc_dmem (w : Word) : (loadWordAtPc w s).dmem = s.dmem := rfl
@[simp] theorem loadWordAtPc_draws (w : Word) : (loadWordAtPc w s).draws = s.draws := rfl

/-! ## writeBank -/

@[simp] theorem writeBank_cfg (b : Bank) (i : RegIx) (v : Word) : (writeBank b i v s).cfg = s.cfg := by rw [writeBank_eq]
@[simp] theorem writeBank_pc (b : Bank) (i : RegIx) (v : Word) : (writeBank b i v s).pc = s.pc := by rw [writeBank_eq]
@[simp] theorem writeBank_glbregf (b : Bank) (i : RegIx) (v : Word) : (writeBank b i v s).glbregf = s.glbregf := by rw [writeBank_eq]
@[simp] theorem writeBank_bank (b : Bank) (i : RegIx) (v : Word) : (writeBank b i v s).bank = s.bank := by rw [writeBank_eq]
@[simp] theorem writeBank_statZ (b : Bank) (i : RegIx) (v : Word) : (writeBank b i v s).statZ = s.statZ := by rw [writeBank_eq]
@[simp] theorem writeBank_statOV (b : Bank) (i : RegIx) (v : Word) : (writeBank b i v s).statOV = s.statOV := by rw [writeBank_eq]
@[simp] theorem writeBank_statPema (b : Bank) (i : RegIx) (v : Word) : (writeBank b i v s).statPema = s.statPema := by rw [writeBank_eq]
@[simp] theorem writeBank_statPml (b : Bank) (i : RegIx) (v : Word) : (writeBank b i v s).statPml = s.statPml := by rw [writeBank_eq]
@[simp] theorem writeBank_statGine (b : Bank) (i : RegIx) (v : Word) : (writeBank b i v s).statGine = s.statGine := by rw [writeBank_eq]
@[simp] theorem writeBank_statSpcp (b : Bank) (i : RegIx) (v : Word) : (writeBank b i v s).statSpcp = s.statSpcp := by rw [writeBank_eq]
@[simp] theorem writeBank_opcarp (b : Bank) (i : RegIx) (v : Word) : (writeBank b i v s).opcarp = s.opcarp := by rw [writeBank_eq]
@[simp] theorem writeBank_cpidtp (b : Bank) (i : RegIx) (v : Word) : (writeBank b i v s).cpidtp = s.cpidtp := by rw [writeBank_eq]
@[simp] theorem writeBank_uinten (b : Bank) (i : RegIx) (v : Word) : (writeBank b i v s).uinten = s.uinten := by rw [writeBank_eq]
@[simp] theorem writeBank_rptinfo (b : Bank) (i : RegIx) (v : Word) : (writeBank b i v s).rptinfo = s.rptinfo := by rw [writeBank_eq]
@[simp] theorem writeBank_rpid (b : Bank) (i : RegIx) (v : Word) : (writeBank b i v s).rpid = s.rpid := by rw [writeBank_eq]
@[simp] theorem writeBank_smstat (b : Bank) (i : RegIx) (v : Word) : (writeBank b i v s).smstat = s.smstat := by rw [writeBank_eq]
@[simp] theorem writeBank_rpcpr0 (b : Bank) (i : RegIx) (v : Word) : (writeBank b i v s).rpcpr0 = s.rpcpr0 := by rw [writeBank_eq]
@[simp] theorem writeBank_rpitp (b : Bank) (i : RegIx) (v : Word) : (writeBank b i v s).rpitp = s.rpitp := by rw [writeBank_eq]
@[simp] theorem writeBank_htinfop (b : Bank) (i : RegIx) (v : Word) : (writeBank b i v s).htinfop = s.htinfop := by rw [writeBank_eq]
@[simp] theorem writeBank_htctlp (b : Bank) (i : RegIx) (v : Word) : (writeBank b i v s).htctlp = s.htctlp := by rw [writeBank_eq]
@[simp] theorem writeBank_ecode (b : Bank) (i : RegIx) (v : Word) : (writeBank b i v s).ecode = s.ecode := by rw [writeBank_eq]
@[simp] theorem writeBank_sysctp (b : Bank) (i : RegIx) (v : Word) : (writeBank b i v s).sysctp = s.sysctp := by rw [writeBank_eq]
@[simp] theorem writeBank_sysRetPc (b : Bank) (i : RegIx) (v : Word) : (writeBank b i v s).sysRetPc = s.sysRetPc := by rw [writeBank_eq]
@[simp] theorem writeBank_sysRetPml (b : Bank) (i : RegIx) (v : Word) : (writeBank b i v s).sysRetPml = s.sysRetPml := by rw [writeBank_eq]
@[simp] theorem writeBank_roiPending (b : Bank) (i : RegIx) (v : Word) : (writeBank b i v s).roiPending = s.roiPending := by rw [writeBank_eq]
@[simp] theorem writeBank_extraPending (b : Bank) (i : RegIx) (v : Word) : (writeBank b i v s).extraPending = s.extraPending := by rw [writeBank_eq]
@[simp] theorem writeBank_resource (b : Bank) (i : RegIx) (v : Word) : (writeBank b i v s).resource = s.resource := by rw [writeBank_eq]
@[simp] theorem writeBank_device (b : Bank) (i : RegIx) (v : Word) : (writeBank b i v s).device = s.device := by rw [writeBank_eq]
@[simp] theorem writeBank_imem (b : Bank) (i : RegIx) (v : Word) : (writeBank b i v s).imem = s.imem := by rw [writeBank_eq]
@[simp] theorem writeBank_dmem (b : Bank) (i : RegIx) (v : Word) : (writeBank b i v s).dmem = s.dmem := by rw [writeBank_eq]
@[simp] theorem writeBank_draws (b : Bank) (i : RegIx) (v : Word) : (writeBank b i v s).draws = s.draws := by rw [writeBank_eq]

/-! ## writeReg -/

@[simp] theorem writeReg_cfg (i : RegIx) (v : Word) : (writeReg i v s).cfg = s.cfg := by simp [writeReg]
@[simp] theorem writeReg_pc (i : RegIx) (v : Word) : (writeReg i v s).pc = s.pc := by simp [writeReg]
@[simp] theorem writeReg_glbregf (i : RegIx) (v : Word) : (writeReg i v s).glbregf = s.glbregf := by simp [writeReg]
@[simp] theorem writeReg_bank (i : RegIx) (v : Word) : (writeReg i v s).bank = s.bank := by simp [writeReg]
@[simp] theorem writeReg_statZ (i : RegIx) (v : Word) : (writeReg i v s).statZ = s.statZ := by simp [writeReg]
@[simp] theorem writeReg_statOV (i : RegIx) (v : Word) : (writeReg i v s).statOV = s.statOV := by simp [writeReg]
@[simp] theorem writeReg_statPema (i : RegIx) (v : Word) : (writeReg i v s).statPema = s.statPema := by simp [writeReg]
@[simp] theorem writeReg_statPml (i : RegIx) (v : Word) : (writeReg i v s).statPml = s.statPml := by simp [writeReg]
@[simp] theorem writeReg_statGine (i : RegIx) (v : Word) : (writeReg i v s).statGine = s.statGine := by simp [writeReg]
@[simp] theorem writeReg_statSpcp (i : RegIx) (v : Word) : (writeReg i v s).statSpcp = s.statSpcp := by simp [writeReg]
@[simp] theorem writeReg_opcarp (i : RegIx) (v : Word) : (writeReg i v s).opcarp = s.opcarp := by simp [writeReg]
@[simp] theorem writeReg_cpidtp (i : RegIx) (v : Word) : (writeReg i v s).cpidtp = s.cpidtp := by simp [writeReg]
@[simp] theorem writeReg_uinten (i : RegIx) (v : Word) : (writeReg i v s).uinten = s.uinten := by simp [writeReg]
@[simp] theorem writeReg_rptinfo (i : RegIx) (v : Word) : (writeReg i v s).rptinfo = s.rptinfo := by simp [writeReg]
@[simp] theorem writeReg_rpid (i : RegIx) (v : Word) : (writeReg i v s).rpid = s.rpid := by simp [writeReg]
@[simp] theorem writeReg_smstat (i : RegIx) (v : Word) : (writeReg i v s).smstat = s.smstat := by simp [writeReg]
@[simp] theorem writeReg_rpcpr0 (i : RegIx) (v : Word) : (writeReg i v s).rpcpr0 = s.rpcpr0 := by simp [writeReg]
@[simp] theorem writeReg_rpitp (i : RegIx) (v : Word) : (writeReg i v s).rpitp = s.rpitp := by simp [writeReg]
@[simp] theorem writeReg_htinfop (i : RegIx) (v : Word) : (writeReg i v s).htinfop = s.htinfop := by simp [writeReg]
@[simp] theorem writeReg_htctlp (i : RegIx) (v : Word) : (writeReg i v s).htctlp = s.htctlp := by simp [writeReg]
@[simp] theorem writeReg_ecode (i : RegIx) (v : Word) : (writeReg i v s).ecode = s.ecode := by simp [writeReg]
@[simp] theorem writeReg_sysctp (i : RegIx) (v : Word) : (writeReg i v s).sysctp = s.sysctp := by simp [writeReg]
@[simp] theorem writeReg_sysRetPc (i : RegIx) (v : Word) : (writeReg i v s).sysRetPc = s.sysRetPc := by simp [writeReg]
@[simp] theorem writeReg_sysRetPml (i : RegIx) (v : Word) : (writeReg i v s).sysRetPml = s.sysRetPml := by simp [writeReg]
@[simp] theorem writeReg_roiPending (i : RegIx) (v : Word) : (writeReg i v s).roiPending = s.roiPending := by simp [writeReg]
@[simp] theorem writeReg_extraPending (i : RegIx) (v : Word) : (writeReg i v s).extraPending = s.extraPending := by simp [writeReg]
@[simp] theorem writeReg_resource (i : RegIx) (v : Word) : (writeReg i v s).resource = s.resource := by simp [writeReg]
@[simp] theorem writeReg_device (i : RegIx) (v : Word) : (writeReg i v s).device = s.device := by simp [writeReg]
@[simp] theorem writeReg_imem (i : RegIx) (v : Word) : (writeReg i v s).imem = s.imem := by simp [writeReg]
@[simp] theorem writeReg_dmem (i : RegIx) (v : Word) : (writeReg i v s).dmem = s.dmem := by simp [writeReg]
@[simp] theorem writeReg_draws (i : RegIx) (v : Word) : (writeReg i v s).draws = s.draws := by simp [writeReg]

/-! ## setLevel -/

@[simp] theorem setLevel_cfg (p : BitVec 3) : (setLevel p s).cfg = s.cfg := by rw [setLevel_eq]
@[simp] theorem setLevel_pc (p : BitVec 3) : (setLevel p s).pc = s.pc := by rw [setLevel_eq]
@[simp] theorem setLevel_gpregf (p : BitVec 3) : (setLevel p s).gpregf = s.gpregf := by rw [setLevel_eq]
@[simp] theorem setLevel_sysregf (p : BitVec 3) : (setLevel p s).sysregf = s.sysregf := by rw [setLevel_eq]
@[simp] theorem setLevel_glbregf (p : BitVec 3) : (setLevel p s).glbregf = s.glbregf := by rw [setLevel_eq]
@[simp] theorem setLevel_bank (p : BitVec 3) : (setLevel p s).bank = s.bank := by rw [setLevel_eq]
@[simp] theorem setLevel_statZ (p : BitVec 3) : (setLevel p s).statZ = s.statZ := by rw [setLevel_eq]
@[simp] theorem setLevel_statOV (p : BitVec 3) : (setLevel p s).statOV = s.statOV := by rw [setLevel_eq]
@[simp] theorem setLevel_statPema (p : BitVec 3) : (setLevel p s).statPema = s.statPema := by rw [setLevel_eq]
@[simp] theorem setLevel_statGine (p : BitVec 3) : (setLevel p s).statGine = s.statGine := by rw [setLevel_eq]
@[simp] theorem setLevel_statSpcp (p : BitVec 3) : (setLevel p s).statSpcp = s.statSpcp := by rw [setLevel_eq]
@[simp] theorem setLevel_opcarp (p : BitVec 3) : (setLevel p s).opcarp = s.opcarp := by rw [setLevel_eq]
@[simp] theorem setLevel_cpidtp (p : BitVec 3) : (setLevel p s).cpidtp = s.cpidtp := by rw [setLevel_eq]
@[simp] theorem setLevel_uinten (p : BitVec 3) : (setLevel p s).uinten = s.uinten := by rw [setLevel_eq]
@[simp] theorem setLevel_rptinfo (p : BitVec 3) : (setLevel p s).rptinfo = s.rptinfo := by rw [setLevel_eq]
@[simp] theorem setLevel_rpid (p : BitVec 3) : (setLevel p s).rpid = s.rpid := by rw [setLevel_eq]
@[simp] theorem setLevel_smstat (p : BitVec 3) : (setLevel p s).smstat = s.smstat := by rw [setLevel_eq]
@[simp] theorem setLevel_rpcpr0 (p : BitVec 3) : (setLevel p s).rpcpr0 = s.rpcpr0 := by rw [setLevel_eq]
@[simp] theorem setLevel_rpitp (p : BitVec 3) : (setLevel p s).rpitp = s.rpitp := by rw [setLevel_eq]
@[simp] theorem setLevel_htinfop (p : BitVec 3) : (setLevel p s).htinfop = s.htinfop := by rw [setLevel_eq]
@[simp] theorem setLevel_htctlp (p : BitVec 3) : (setLevel p s).htctlp = s.htctlp := by rw [setLevel_eq]
@[simp] theorem setLevel_ecode (p : BitVec 3) : (setLevel p s).ecode = s.ecode := by rw [setLevel_eq]
@[simp] theorem setLevel_sysctp (p : BitVec 3) : (setLevel p s).sysctp = s.sysctp := by rw [setLevel_eq]
@[simp] theorem setLevel_sysRetPc (p : BitVec 3) : (setLevel p s).sysRetPc = s.sysRetPc := by rw [setLevel_eq]
@[simp] theorem setLevel_sysRetPml (p : BitVec 3) : (setLevel p s).sysRetPml = s.sysRetPml := by rw [setLevel_eq]
@[simp] theorem setLevel_roiPending (p : BitVec 3) : (setLevel p s).roiPending = s.roiPending := by rw [setLevel_eq]
@[simp] theorem setLevel_extraPending (p : BitVec 3) : (setLevel p s).extraPending = s.extraPending := by rw [setLevel_eq]
@[simp] theorem setLevel_resource (p : BitVec 3) : (setLevel p s).resource = s.resource := by rw [setLevel_eq]
@[simp] theorem setLevel_device (p : BitVec 3) : (setLevel p s).device = s.device := by rw [setLevel_eq]
@[simp] theorem setLevel_imem (p : BitVec 3) : (setLevel p s).imem = s.imem := by rw [setLevel_eq]
@[simp] theorem setLevel_dmem (p : BitVec 3) : (setLevel p s).dmem = s.dmem := by rw [setLevel_eq]
@[simp] theorem setLevel_draws (p : BitVec 3) : (setLevel p s).draws = s.draws := by rw [setLevel_eq]

/-! ## setPema -/

@[simp] theorem setPema_cfg (v : Bool) : (setPema v s).cfg = s.cfg := by rw [setPema_eq]
@[simp] theorem setPema_pc (v : Bool) : (setPema v s).pc = s.pc := by rw [setPema_eq]
@[simp] theorem setPema_gpregf (v : Bool) : (setPema v s).gpregf = s.gpregf := by rw [setPema_eq]
@[simp] theorem setPema_sysregf (v : Bool) : (setPema v s).sysregf = s.sysregf := by rw [setPema_eq]
@[simp] theorem setPema_glbregf (v : Bool) : (setPema v s).glbregf = s.glbregf := by rw [setPema_eq]
@[simp] theorem setPema_bank (v : Bool) : (setPema v s).bank = s.bank := by rw [setPema_eq]
@[simp] theorem setPema_statZ (v : Bool) : (setPema v s).statZ = s.statZ := by rw [setPema_eq]
@[simp] theorem setPema_statOV (v : Bool) : (setPema v s).statOV = s.statOV := by rw [setPema_eq]
@[simp] theorem setPema_statPml (v : Bool) : (setPema v s).statPml = s.statPml := by rw [setPema_eq]
@[simp] theorem setPema_statGine (v : Bool) : (setPema v s).statGine = s.statGine := by rw [setPema_eq]
@[simp] theorem setPema_statSpcp (v : Bool) : (setPema v s).statSpcp = s.statSpcp := by rw [setPema_eq]
@[simp] theorem setPema_opcarp (v : Bool) : (setPema v s).opcarp = s.opcarp := by rw [setPema_eq]
@[simp] theorem setPema_cpidtp (v : Bool) : (setPema v s).cpidtp = s.cpidtp := by rw [setPema_eq]
@[simp] theorem setPema_uinten (v : Bool) : (setPema v s).uinten = s.uinten := by rw [setPema_eq]
@[simp] theorem setPema_rptinfo (v : Bool) : (setPema v s).rptinfo = s.rptinfo := by rw [setPema_eq]
@[simp] theorem setPema_rpid (v : Bool) : (setPema v s).rpid = s.rpid := by rw [setPema_eq]
@[simp] theorem setPema_smstat (v : Bool) : (setPema v s).smstat = s.smstat := by rw [setPema_eq]
@[simp] theorem setPema_rpcpr0 (v : Bool) : (setPema v s).rpcpr0 = s.rpcpr0 := by rw [setPema_eq]
@[simp] theorem setPema_rpitp (v : Bool) : (setPema v s).rpitp = s.rpitp := by rw [setPema_eq]
@[simp] theorem setPema_htinfop (v : Bool) : (setPema v s).htinfop = s.htinfop := by rw [setPema_eq]
@[simp] theorem setPema_htctlp (v : Bool) : (setPema v s).htctlp = s.htctlp := by rw [setPema_eq]
@[simp] theorem setPema_ecode (v : Bool) : (setPema v s).ecode = s.ecode := by rw [setPema_eq]
@[simp] theorem setPema_sysctp (v : Bool) : (setPema v s).sysctp = s.sysctp := by rw [setPema_eq]
@[simp] theorem setPema_sysRetPc (v : Bool) : (setPema v s).sysRetPc = s.sysRetPc := by rw [setPema_eq]
@[simp] theorem setPema_sysRetPml (v : Bool) : (setPema v s).sysRetPml = s.sysRetPml := by rw [setPema_eq]
@[simp] theorem setPema_roiPending (v : Bool) : (setPema v s).roiPending = s.roiPending := by rw [setPema_eq]
@[simp] theorem setPema_extraPending (v : Bool) : (setPema v s).extraPending = s.extraPending := by rw [setPema_eq]
@[simp] theorem setPema_resource (v : Bool) : (setPema v s).resource = s.resource := by rw [setPema_eq]
@[simp] theorem setPema_device (v : Bool) : (setPema v s).device = s.device := by rw [setPema_eq]
@[simp] theorem setPema_imem (v : Bool) : (setPema v s).imem = s.imem := by rw [setPema_eq]
@[simp] theorem setPema_dmem (v : Bool) : (setPema v s).dmem = s.dmem := by rw [setPema_eq]
@[simp] theorem setPema_draws (v : Bool) : (setPema v s).draws = s.draws := by rw [setPema_eq]

/-! ## finishKeepOV -/

@[simp] theorem finishKeepOV_cfg (rd : RegIx) (r : Word) : (finishKeepOV rd r s).cfg = s.cfg := by simp [finishKeepOV]
@[simp] theorem finishKeepOV_pc (rd : RegIx) (r : Word) : (finishKeepOV rd r s).pc = s.pc + 4 := by simp [finishKeepOV]
@[simp] theorem finishKeepOV_glbregf (rd : RegIx) (r : Word) : (finishKeepOV rd r s).glbregf = s.glbregf := by simp [finishKeepOV]
@[simp] theorem finishKeepOV_bank (rd : RegIx) (r : Word) : (finishKeepOV rd r s).bank = s.bank := by simp [finishKeepOV]
@[simp] theorem finishKeepOV_statZ (rd : RegIx) (r : Word) : (finishKeepOV rd r s).statZ = .known (zeroFlag r) := by simp [finishKeepOV]
@[simp] theorem finishKeepOV_statOV (rd : RegIx) (r : Word) : (finishKeepOV rd r s).statOV = s.statOV := by simp [finishKeepOV]
@[simp] theorem finishKeepOV_statPema (rd : RegIx) (r : Word) : (finishKeepOV rd r s).statPema = s.statPema := by simp [finishKeepOV]
@[simp] theorem finishKeepOV_statPml (rd : RegIx) (r : Word) : (finishKeepOV rd r s).statPml = s.statPml := by simp [finishKeepOV]
@[simp] theorem finishKeepOV_statGine (rd : RegIx) (r : Word) : (finishKeepOV rd r s).statGine = s.statGine := by simp [finishKeepOV]
@[simp] theorem finishKeepOV_statSpcp (rd : RegIx) (r : Word) : (finishKeepOV rd r s).statSpcp = s.statSpcp := by simp [finishKeepOV]
@[simp] theorem finishKeepOV_opcarp (rd : RegIx) (r : Word) : (finishKeepOV rd r s).opcarp = s.opcarp := by simp [finishKeepOV]
@[simp] theorem finishKeepOV_cpidtp (rd : RegIx) (r : Word) : (finishKeepOV rd r s).cpidtp = s.cpidtp := by simp [finishKeepOV]
@[simp] theorem finishKeepOV_uinten (rd : RegIx) (r : Word) : (finishKeepOV rd r s).uinten = s.uinten := by simp [finishKeepOV]
@[simp] theorem finishKeepOV_rptinfo (rd : RegIx) (r : Word) : (finishKeepOV rd r s).rptinfo = s.rptinfo := by simp [finishKeepOV]
@[simp] theorem finishKeepOV_rpid (rd : RegIx) (r : Word) : (finishKeepOV rd r s).rpid = s.rpid := by simp [finishKeepOV]
@[simp] theorem finishKeepOV_smstat (rd : RegIx) (r : Word) : (finishKeepOV rd r s).smstat = s.smstat := by simp [finishKeepOV]
@[simp] theorem finishKeepOV_rpcpr0 (rd : RegIx) (r : Word) : (finishKeepOV rd r s).rpcpr0 = s.rpcpr0 := by simp [finishKeepOV]
@[simp] theorem finishKeepOV_rpitp (rd : RegIx) (r : Word) : (finishKeepOV rd r s).rpitp = s.rpitp := by simp [finishKeepOV]
@[simp] theorem finishKeepOV_htinfop (rd : RegIx) (r : Word) : (finishKeepOV rd r s).htinfop = s.htinfop := by simp [finishKeepOV]
@[simp] theorem finishKeepOV_htctlp (rd : RegIx) (r : Word) : (finishKeepOV rd r s).htctlp = s.htctlp := by simp [finishKeepOV]
@[simp] theorem finishKeepOV_ecode (rd : RegIx) (r : Word) : (finishKeepOV rd r s).ecode = s.ecode := by simp [finishKeepOV]
@[simp] theorem finishKeepOV_sysctp (rd : RegIx) (r : Word) : (finishKeepOV rd r s).sysctp = s.sysctp := by simp [finishKeepOV]
@[simp] theorem finishKeepOV_sysRetPc (rd : RegIx) (r : Word) : (finishKeepOV rd r s).sysRetPc = s.sysRetPc := by simp [finishKeepOV]
@[simp] theorem finishKeepOV_sysRetPml (rd : RegIx) (r : Word) : (finishKeepOV rd r s).sysRetPml = s.sysRetPml := by simp [finishKeepOV]
@[simp] theorem finishKeepOV_roiPending (rd : RegIx) (r : Word) : (finishKeepOV rd r s).roiPending = s.roiPending := by simp [finishKeepOV]
@[simp] theorem finishKeepOV_extraPending (rd : RegIx) (r : Word) : (finishKeepOV rd r s).extraPending = s.extraPending := by simp [finishKeepOV]
@[simp] theorem finishKeepOV_resource (rd : RegIx) (r : Word) : (finishKeepOV rd r s).resource = s.resource := by simp [finishKeepOV]
@[simp] theorem finishKeepOV_device (rd : RegIx) (r : Word) : (finishKeepOV rd r s).device = s.device := by simp [finishKeepOV]
@[simp] theorem finishKeepOV_imem (rd : RegIx) (r : Word) : (finishKeepOV rd r s).imem = s.imem := by simp [finishKeepOV]
@[simp] theorem finishKeepOV_dmem (rd : RegIx) (r : Word) : (finishKeepOV rd r s).dmem = s.dmem := by simp [finishKeepOV]
@[simp] theorem finishKeepOV_draws (rd : RegIx) (r : Word) : (finishKeepOV rd r s).draws = s.draws := by simp [finishKeepOV]

/-! ## finishArith -/

@[simp] theorem finishArith_cfg (rd : RegIx) (r : Word) (ov : Bool) : (finishArith rd r ov s).cfg = s.cfg := by simp [finishArith]
@[simp] theorem finishArith_pc (rd : RegIx) (r : Word) (ov : Bool) : (finishArith rd r ov s).pc = s.pc + 4 := by simp [finishArith]
@[simp] theorem finishArith_glbregf (rd : RegIx) (r : Word) (ov : Bool) : (finishArith rd r ov s).glbregf = s.glbregf := by simp [finishArith]
@[simp] theorem finishArith_bank (rd : RegIx) (r : Word) (ov : Bool) : (finishArith rd r ov s).bank = s.bank := by simp [finishArith]
@[simp] theorem finishArith_statZ (rd : RegIx) (r : Word) (ov : Bool) : (finishArith rd r ov s).statZ = .known (zeroFlag r) := by simp [finishArith]
@[simp] theorem finishArith_statOV (rd : RegIx) (r : Word) (ov : Bool) : (finishArith rd r ov s).statOV = .known ov := by simp [finishArith]
@[simp] theorem finishArith_statPema (rd : RegIx) (r : Word) (ov : Bool) : (finishArith rd r ov s).statPema = s.statPema := by simp [finishArith]
@[simp] theorem finishArith_statPml (rd : RegIx) (r : Word) (ov : Bool) : (finishArith rd r ov s).statPml = s.statPml := by simp [finishArith]
@[simp] theorem finishArith_statGine (rd : RegIx) (r : Word) (ov : Bool) : (finishArith rd r ov s).statGine = s.statGine := by simp [finishArith]
@[simp] theorem finishArith_statSpcp (rd : RegIx) (r : Word) (ov : Bool) : (finishArith rd r ov s).statSpcp = s.statSpcp := by simp [finishArith]
@[simp] theorem finishArith_opcarp (rd : RegIx) (r : Word) (ov : Bool) : (finishArith rd r ov s).opcarp = s.opcarp := by simp [finishArith]
@[simp] theorem finishArith_cpidtp (rd : RegIx) (r : Word) (ov : Bool) : (finishArith rd r ov s).cpidtp = s.cpidtp := by simp [finishArith]
@[simp] theorem finishArith_uinten (rd : RegIx) (r : Word) (ov : Bool) : (finishArith rd r ov s).uinten = s.uinten := by simp [finishArith]
@[simp] theorem finishArith_rptinfo (rd : RegIx) (r : Word) (ov : Bool) : (finishArith rd r ov s).rptinfo = s.rptinfo := by simp [finishArith]
@[simp] theorem finishArith_rpid (rd : RegIx) (r : Word) (ov : Bool) : (finishArith rd r ov s).rpid = s.rpid := by simp [finishArith]
@[simp] theorem finishArith_smstat (rd : RegIx) (r : Word) (ov : Bool) : (finishArith rd r ov s).smstat = s.smstat := by simp [finishArith]
@[simp] theorem finishArith_rpcpr0 (rd : RegIx) (r : Word) (ov : Bool) : (finishArith rd r ov s).rpcpr0 = s.rpcpr0 := by simp [finishArith]
@[simp] theorem finishArith_rpitp (rd : RegIx) (r : Word) (ov : Bool) : (finishArith rd r ov s).rpitp = s.rpitp := by simp [finishArith]
@[simp] theorem finishArith_htinfop (rd : RegIx) (r : Word) (ov : Bool) : (finishArith rd r ov s).htinfop = s.htinfop := by simp [finishArith]
@[simp] theorem finishArith_htctlp (rd : RegIx) (r : Word) (ov : Bool) : (finishArith rd r ov s).htctlp = s.htctlp := by simp [finishArith]
@[simp] theorem finishArith_ecode (rd : RegIx) (r : Word) (ov : Bool) : (finishArith rd r ov s).ecode = s.ecode := by simp [finishArith]
@[simp] theorem finishArith_sysctp (rd : RegIx) (r : Word) (ov : Bool) : (finishArith rd r ov s).sysctp = s.sysctp := by simp [finishArith]
@[simp] theorem finishArith_sysRetPc (rd : RegIx) (r : Word) (ov : Bool) : (finishArith rd r ov s).sysRetPc = s.sysRetPc := by simp [finishArith]
@[simp] theorem finishArith_sysRetPml (rd : RegIx) (r : Word) (ov : Bool) : (finishArith rd r ov s).sysRetPml = s.sysRetPml := by simp [finishArith]
@[simp] theorem finishArith_roiPending (rd : RegIx) (r : Word) (ov : Bool) : (finishArith rd r ov s).roiPending = (s.roiPending || ov) := by simp [finishArith]
@[simp] theorem finishArith_extraPending (rd : RegIx) (r : Word) (ov : Bool) : (finishArith rd r ov s).extraPending = s.extraPending := by simp [finishArith]
@[simp] theorem finishArith_resource (rd : RegIx) (r : Word) (ov : Bool) : (finishArith rd r ov s).resource = s.resource := by simp [finishArith]
@[simp] theorem finishArith_device (rd : RegIx) (r : Word) (ov : Bool) : (finishArith rd r ov s).device = s.device := by simp [finishArith]
@[simp] theorem finishArith_imem (rd : RegIx) (r : Word) (ov : Bool) : (finishArith rd r ov s).imem = s.imem := by simp [finishArith]
@[simp] theorem finishArith_dmem (rd : RegIx) (r : Word) (ov : Bool) : (finishArith rd r ov s).dmem = s.dmem := by simp [finishArith]
@[simp] theorem finishArith_draws (rd : RegIx) (r : Word) (ov : Bool) : (finishArith rd r ov s).draws = s.draws := by simp [finishArith]

/-! ## finishFreeOV -/

@[simp] theorem finishFreeOV_cfg (rd : RegIx) (r : Word) : (finishFreeOV rd r s).cfg = s.cfg := by simp [finishFreeOV]
@[simp] theorem finishFreeOV_pc (rd : RegIx) (r : Word) : (finishFreeOV rd r s).pc = s.pc + 4 := by simp [finishFreeOV]
@[simp] theorem finishFreeOV_glbregf (rd : RegIx) (r : Word) : (finishFreeOV rd r s).glbregf = s.glbregf := by simp [finishFreeOV]
@[simp] theorem finishFreeOV_bank (rd : RegIx) (r : Word) : (finishFreeOV rd r s).bank = s.bank := by simp [finishFreeOV]
@[simp] theorem finishFreeOV_statZ (rd : RegIx) (r : Word) : (finishFreeOV rd r s).statZ = .known (zeroFlag r) := by simp [finishFreeOV]
@[simp] theorem finishFreeOV_statOV (rd : RegIx) (r : Word) : (finishFreeOV rd r s).statOV = s.cfg.ovNonArith := by simp [finishFreeOV]
@[simp] theorem finishFreeOV_statPema (rd : RegIx) (r : Word) : (finishFreeOV rd r s).statPema = s.statPema := by simp [finishFreeOV]
@[simp] theorem finishFreeOV_statPml (rd : RegIx) (r : Word) : (finishFreeOV rd r s).statPml = s.statPml := by simp [finishFreeOV]
@[simp] theorem finishFreeOV_statGine (rd : RegIx) (r : Word) : (finishFreeOV rd r s).statGine = s.statGine := by simp [finishFreeOV]
@[simp] theorem finishFreeOV_statSpcp (rd : RegIx) (r : Word) : (finishFreeOV rd r s).statSpcp = s.statSpcp := by simp [finishFreeOV]
@[simp] theorem finishFreeOV_opcarp (rd : RegIx) (r : Word) : (finishFreeOV rd r s).opcarp = s.opcarp := by simp [finishFreeOV]
@[simp] theorem finishFreeOV_cpidtp (rd : RegIx) (r : Word) : (finishFreeOV rd r s).cpidtp = s.cpidtp := by simp [finishFreeOV]
@[simp] theorem finishFreeOV_uinten (rd : RegIx) (r : Word) : (finishFreeOV rd r s).uinten = s.uinten := by simp [finishFreeOV]
@[simp] theorem finishFreeOV_rptinfo (rd : RegIx) (r : Word) : (finishFreeOV rd r s).rptinfo = s.rptinfo := by simp [finishFreeOV]
@[simp] theorem finishFreeOV_rpid (rd : RegIx) (r : Word) : (finishFreeOV rd r s).rpid = s.rpid := by simp [finishFreeOV]
@[simp] theorem finishFreeOV_smstat (rd : RegIx) (r : Word) : (finishFreeOV rd r s).smstat = s.smstat := by simp [finishFreeOV]
@[simp] theorem finishFreeOV_rpcpr0 (rd : RegIx) (r : Word) : (finishFreeOV rd r s).rpcpr0 = s.rpcpr0 := by simp [finishFreeOV]
@[simp] theorem finishFreeOV_rpitp (rd : RegIx) (r : Word) : (finishFreeOV rd r s).rpitp = s.rpitp := by simp [finishFreeOV]
@[simp] theorem finishFreeOV_htinfop (rd : RegIx) (r : Word) : (finishFreeOV rd r s).htinfop = s.htinfop := by simp [finishFreeOV]
@[simp] theorem finishFreeOV_htctlp (rd : RegIx) (r : Word) : (finishFreeOV rd r s).htctlp = s.htctlp := by simp [finishFreeOV]
@[simp] theorem finishFreeOV_ecode (rd : RegIx) (r : Word) : (finishFreeOV rd r s).ecode = s.ecode := by simp [finishFreeOV]
@[simp] theorem finishFreeOV_sysctp (rd : RegIx) (r : Word) : (finishFreeOV rd r s).sysctp = s.sysctp := by simp [finishFreeOV]
@[simp] theorem finishFreeOV_sysRetPc (rd : RegIx) (r : Word) : (finishFreeOV rd r s).sysRetPc = s.sysRetPc := by simp [finishFreeOV]
@[simp] theorem finishFreeOV_sysRetPml (rd : RegIx) (r : Word) : (finishFreeOV rd r s).sysRetPml = s.sysRetPml := by simp [finishFreeOV]
@[simp] theorem finishFreeOV_roiPending (rd : RegIx) (r : Word) : (finishFreeOV rd r s).roiPending = s.roiPending := by simp [finishFreeOV]
@[simp] theorem finishFreeOV_extraPending (rd : RegIx) (r : Word) : (finishFreeOV rd r s).extraPending = s.extraPending := by simp [finishFreeOV]
@[simp] theorem finishFreeOV_resource (rd : RegIx) (r : Word) : (finishFreeOV rd r s).resource = s.resource := by simp [finishFreeOV]
@[simp] theorem finishFreeOV_device (rd : RegIx) (r : Word) : (finishFreeOV rd r s).device = s.device := by simp [finishFreeOV]
@[simp] theorem finishFreeOV_imem (rd : RegIx) (r : Word) : (finishFreeOV rd r s).imem = s.imem := by simp [finishFreeOV]
@[simp] theorem finishFreeOV_dmem (rd : RegIx) (r : Word) : (finishFreeOV rd r s).dmem = s.dmem := by simp [finishFreeOV]
@[simp] theorem finishFreeOV_draws (rd : RegIx) (r : Word) : (finishFreeOV rd r s).draws = s.draws := by simp [finishFreeOV]

end Sys2Proof.Machine
end

