-- ==== Sys2Proof/Laws/Memory.lean ====
section
/-! SUPPORT. The laws of memory: reading after a write, the canonical form that every memory operation keeps, and the data
space of a state. -/

namespace Sys2Proof.Machine

/-- Reading after a write of one byte. -/
theorem memRead_memWrite (m : Memory) (a x : Nat) (b : Byte) :
    memRead (memWrite m a b) x = if x = a then some b else memRead m x := by
  induction m with
  | nil => by_cases h : x = a <;> simp [memWrite, memRead, h]
  | cons e m ih =>
    obtain ⟨k, v⟩ := e
    unfold memWrite
    split
    · subst_vars
      by_cases h : x = k <;> simp [memRead, h]
    · split
      · by_cases h : x = a
        · simp [memRead, h]
        · by_cases h' : x < a
          · have : x ≠ k := by omega
            have : x < k := by omega
            simp [memRead, *]
          · simp [memRead, h, h']
      · by_cases h : x = k
        · have : x ≠ a := by omega
          subst h
          simp [memRead, this]
        · by_cases h' : x < k
          · have : x ≠ a := by omega
            simp [memRead, *]
          · simp [memRead, h, h', ih]

/-- A write keeps the addresses rising from a bound it does not go below. -/
theorem memRises_memWrite (m : Memory) (lo a : Nat) (b : Byte) (h : memRises lo m = true) (hlo : lo ≤ a)
    (ha : a < 4294967296) : memRises lo (memWrite m a b) = true := by
  induction m generalizing lo with
  | nil => simp [memWrite, memRises, hlo, ha]
  | cons e m ih =>
    obtain ⟨k, v⟩ := e
    simp only [memRises, Bool.and_eq_true, decide_eq_true_eq] at h
    unfold memWrite
    split
    · subst_vars
      simp [memRises, h]
    · split
      · simp only [memRises, Bool.and_eq_true, decide_eq_true_eq]
        exact ⟨⟨hlo, ha⟩, ⟨by omega, h.1.2⟩, h.2⟩
      · simp only [memRises, Bool.and_eq_true, decide_eq_true_eq]
        exact ⟨h.1, ih (k + 1) h.2 (by omega)⟩

/-- A write of one byte keeps the canonical form. -/
theorem memWf_memWrite (m : Memory) (a : Word) (b : Byte) (h : memWf m = true) : memWf (memWrite m a.toNat b) = true :=
  memRises_memWrite m 0 a.toNat b h (Nat.zero_le _) a.isLt

/-- A store keeps the canonical form. -/
theorem memWf_storeValue (m : Memory) (a v : Word) (n : Nat) (h : memWf m = true) :
    memWf (storeValue m a v n) = true := by
  induction n generalizing v with
  | zero => exact h
  | succ n ih => exact memWf_memWrite _ _ _ (ih _)

/-- What a co-processor stores keeps the canonical form. -/
theorem memWf_storeBytes (l : List (Word × Byte)) (m : Memory) (h : memWf m = true) : memWf (storeBytes m l) = true := by
  induction l generalizing m with
  | nil => exact h
  | cons e l ih => exact ih _ (memWf_memWrite m e.1 e.2 h)

/-- Loading an instruction keeps the canonical form of the instruction space. -/
theorem memWf_placeBytes (l : List Byte) (m : Memory) (a : Word) (h : memWf m = true) :
    memWf (placeBytes m a l) = true := by
  induction l generalizing m a with
  | nil => exact h
  | cons b l ih => exact ih _ _ (memWf_memWrite m a b h)

/-- Both memories have the canonical form after reset. -/
theorem memWf_resetWith (c : Config) :
    memWf (State.resetWith c).imem = true ∧ memWf (State.resetWith c).dmem = true := ⟨rfl, rfl⟩

/-- What a store instruction leaves keeps the canonical form. -/
theorem memWf_writeAccess (s : State) (a : Word) (n : Nat) (v : Word) (h : memWf s.dmem = true) :
    memWf (writeAccess s a n v).1 = true :=
  memWf_storeValue _ _ _ _ h

/-- The bytes of one access have different addresses, also where the address wraps. -/
theorem add_ofNat_inj (a : Word) {i j : Nat} (hi : i < 4) (hj : j < 4) :
    (a + BitVec.ofNat 32 i).toNat = (a + BitVec.ofNat 32 j).toNat ↔ i = j := by
  refine ⟨fun h => ?_, fun h => by rw [h]⟩
  have h2 := congrArg BitVec.toNat ((BitVec.add_right_inj a).1 (BitVec.eq_of_toNat_eq h))
  simp only [BitVec.toNat_ofNat] at h2
  omega

/-- A store of one more byte, as a read sees it. -/
theorem memRead_storeValue_succ (m : Memory) (a v : Word) (n x : Nat) :
    memRead (storeValue m a v (n + 1)) x =
      if x = (a + BitVec.ofNat 32 n).toNat then some (v.setWidth 8) else memRead (storeValue m a (v >>> 8) n) x :=
  memRead_memWrite _ _ _ _

/-- A data read depends on the memories, and on whether they are one, alone. -/
theorem dataByte?_congr {s t : State} (hc : t.cfg = s.cfg) (hd : t.dmem = s.dmem) (hi : t.imem = s.imem) (a : Word) :
    dataByte? t a = dataByte? s a := by
  simp [dataByte?, hc, hd, hi]

/-- A byte that the data space lists is what is read, whatever the instruction space holds. -/
theorem dataByte?_of_memRead {s : State} {a : Word} {b : Byte} (h : memRead s.dmem a.toNat = some b) :
    dataByte? s a = some b := by
  simp [dataByte?, h]

/-- A byte that is there is read, and no draw is made. -/
theorem dataByte_of_some {s : State} {a : Word} {b : Byte} (h : dataByte? s a = some b) : dataByte s a = b := by
  simp [dataByte, h]

/-- A read of several bytes depends on the memories, whether they are one, and the draw counter alone. -/
theorem loadValue_congr {s t : State} (hc : t.cfg = s.cfg) (hd : t.dmem = s.dmem) (hi : t.imem = s.imem)
    (hw : t.draws = s.draws) (a : Word) (n : Nat) : loadValue t a n = loadValue s a n := by
  induction n with
  | zero => rfl
  | succ n ih => simp only [loadValue, ih, dataByte, dataByte?_congr hc hd hi, hw]

/-! ## Mapped devices -/

/-- Outside the windows of devices a load is `MemRead`, with no side effect. -/
theorem readAccess_of_memory (s : State) (a : Word) (n : Nat) (h : touchesDevice s.cfg.dMemMap a n = false) :
    readAccess s a n = (loadValue s a n, s.device) := by
  simp [readAccess, h]

/-- Outside the windows of devices a store is `MemWrite`. -/
theorem writeAccess_of_memory (s : State) (a : Word) (n : Nat) (v : Word) (h : touchesDevice s.cfg.dMemMap a n = false) :
    writeAccess s a n v = (storeValue s.dmem a v n, s.device) := by
  simp [writeAccess, h]

/-- An access touches no device exactly when none of its bytes lies in a window. -/
theorem touchesDevice_eq_false_iff (map : List DataRegion) (a : Word) (n : Nat) :
    touchesDevice map a n = false ↔ ∀ k < n, isDevice map (a + BitVec.ofNat 32 k) = false := by
  induction n with
  | zero => simp [touchesDevice]
  | succ n ih =>
    simp only [touchesDevice, Bool.or_eq_false_iff, ih, Nat.lt_succ_iff_lt_or_eq]
    exact ⟨fun h k hk => hk.elim (h.1 k) (fun e => e ▸ h.2), fun h => ⟨fun k hk => h k (.inl hk), h n (.inr rfl)⟩⟩

/-- Where no region of the map has a device no access touches one. -/
theorem touchesDevice_of_no_device (map : List DataRegion) (a : Word) (n : Nat) (h : ∀ r ∈ map, r.device = none) :
    touchesDevice map a n = false := by
  refine (touchesDevice_eq_false_iff map a n).2 fun k _ => ?_
  simp only [isDevice, List.any_eq_false]
  intro r hr
  simp [h r hr]

/-- What a store leaves in memory, windows of devices or not. -/
@[simp] theorem writeAccess_fst (s : State) (a : Word) (n : Nat) (v : Word) :
    (writeAccess s a n v).1 = storeValue s.dmem a v n := rfl

/-! ## The data space as one memory -/

/-- In a memory that rises from a bound nothing stands below it. -/
theorem memRead_of_lt {m : Memory} {lo x : Nat} (h : memRises lo m = true) (hx : x < lo) : memRead m x = none := by
  cases m with
  | nil => rfl
  | cons e m =>
    simp only [memRises, Bool.and_eq_true, decide_eq_true_eq] at h
    have h1 : x ≠ e.1 := by omega
    have h2 : x < e.1 := by omega
    simp [memRead, h1, h2]

/-- A stored byte hides a loaded one. -/
theorem memRead_overlay (loaded : Memory) {m : Memory} {lo : Nat} (h : memRises lo m = true) (x : Nat) :
    memRead (overlay loaded m) x = (memRead m x).or (memRead loaded x) := by
  induction m generalizing lo with
  | nil => simp [overlay, memRead]
  | cons e m ih =>
    obtain ⟨k, b⟩ := e
    simp only [memRises, Bool.and_eq_true, decide_eq_true_eq] at h
    rw [overlay, memRead_memWrite, ih h.2]
    by_cases h1 : x = k
    · simp [memRead, h1]
    · by_cases h2 : x < k
      · simp [memRead, h1, h2, memRead_of_lt h.2 (by omega : x < k + 1)]
      · simp [memRead, h1, h2]

/-- The data space as one memory reads as the core's loads do. -/
theorem memRead_dataSpace (s : State) (a : Word) (h : memWf s.dmem = true) :
    memRead (dataSpace s) a.toNat = dataByte? s a := by
  unfold dataSpace dataByte?
  split
  · rw [memRead_overlay _ h]
    cases memRead s.dmem a.toNat <;> rfl
  · cases memRead s.dmem a.toNat <;> rfl

end Sys2Proof.Machine
end

