-- ==== Sys2Proof/Laws/Registers.lean ====
section
/-! SUPPORT. Reading a register after an update: the laws of the register files and of the two banks. -/

namespace Sys2Proof.Machine

/-- Reading a file after a write: the written register holds the value, every other one what it held. -/
theorem fileGet_fileSet (f : RegFile) (i j : RegIx) (v : Word) :
    fileGet (fileSet f i v) j = if j = i then v else fileGet f j := by
  unfold fileGet fileSet
  rw [Vector.getElem_set]
  by_cases h : i = j
  · simp [h]
  · simp [h, Ne.symm h, BitVec.toNat_inj]

@[simp] theorem readBank_zero (b : Bank) (s : State) : readBank b 0#5 s = 0#32 := by simp [readBank]

@[simp] theorem writeBank_zero (b : Bank) (v : Word) (s : State) : writeBank b 0#5 v s = s := by simp [writeBank]

/-- A register read depends on the shared numbers and the two files alone. -/
theorem readBank_congr {s t : State} (hc : t.cfg = s.cfg) (hg : t.gpregf = s.gpregf) (hs : t.sysregf = s.sysregf)
    (b : Bank) (i : RegIx) : readBank b i t = readBank b i s := by
  simp [readBank, hc, hg, hs]

/-- A global register read depends on GLBREGF alone. -/
theorem readGlobal_congr {s t : State} (hg : t.glbregf = s.glbregf) (i : RegIx) : readGlobal i t = readGlobal i s := by
  simp [readGlobal, hg]

/-- Reading a register of either bank after a write: it holds the value exactly when the two are one register and it is not
register 0. -/
theorem readBank_writeBank (b b' : Bank) (i j : RegIx) (v : Word) (s : State) :
    readBank b' j (writeBank b i v s) =
      if i ≠ 0 ∧ j = i ∧ homeIsGp s.cfg b' i = homeIsGp s.cfg b i then v else readBank b' j s := by
  by_cases hi : i = 0#5
  · simp [hi]
  · rw [writeBank_eq]
    by_cases hj : j = i
    · subst hj
      by_cases h1 : homeIsGp s.cfg b j = true <;> by_cases h2 : homeIsGp s.cfg b' j = true <;>
        simp [readBank, hi, h1, h2, fileGet_fileSet]
    · refine Eq.trans ?_ (if_neg fun h => hj h.2.1).symm
      by_cases h1 : homeIsGp s.cfg b i = true <;> by_cases h2 : homeIsGp s.cfg b' j = true <;>
        simp [readBank, hi, hj, h1, h2, fileGet_fileSet]

/-- A register of the active bank, not register 0, reads as written. -/
theorem readReg_writeReg_self {i : RegIx} (h : i ≠ 0) (v : Word) (s : State) : readReg i (writeReg i v s) = v := by
  rw [readReg, writeReg_bank, writeReg, readBank_writeBank, if_pos ⟨h, rfl, rfl⟩]

@[simp] theorem readGlobal_writeBank (b : Bank) (i j : RegIx) (v : Word) (s : State) :
    readGlobal j (writeBank b i v s) = readGlobal j s := readGlobal_congr (by simp) j

@[simp] theorem readGlobal_writeGlobal (i j : RegIx) (v : Word) (s : State) :
    readGlobal j (writeGlobal i v s) = if j = i then v else readGlobal j s := by
  simp [readGlobal, fileGet_fileSet]

@[simp] theorem readBank_writeGlobal (b : Bank) (i j : RegIx) (v : Word) (s : State) :
    readBank b j (writeGlobal i v s) = readBank b j s := readBank_congr rfl rfl rfl b j

@[simp] theorem readBank_setPc (b : Bank) (j : RegIx) (t : Word) (s : State) :
    readBank b j (setPc t s) = readBank b j s := readBank_congr rfl rfl rfl b j

@[simp] theorem readBank_advance (b : Bank) (j : RegIx) (s : State) :
    readBank b j (advance s) = readBank b j s := readBank_congr rfl rfl rfl b j

@[simp] theorem readBank_setLevel (b : Bank) (j : RegIx) (p : BitVec 3) (s : State) :
    readBank b j (setLevel p s) = readBank b j s := readBank_congr (by simp) (by simp) (by simp) b j

@[simp] theorem readBank_setPema (b : Bank) (j : RegIx) (v : Bool) (s : State) :
    readBank b j (setPema v s) = readBank b j s := readBank_congr (by simp) (by simp) (by simp) b j

@[simp] theorem readGlobal_setPc (j : RegIx) (t : Word) (s : State) : readGlobal j (setPc t s) = readGlobal j s := rfl

@[simp] theorem readGlobal_advance (j : RegIx) (s : State) : readGlobal j (advance s) = readGlobal j s := rfl

/-- The ending of an integer or immediate instruction writes the register of the active bank. -/
@[simp] theorem readBank_finishKeepOV (b : Bank) (j rd : RegIx) (r : Word) (s : State) :
    readBank b j (finishKeepOV rd r s) = readBank b j (writeBank s.bank rd r s) :=
  readBank_congr rfl rfl rfl b j

@[simp] theorem readBank_finishArith (b : Bank) (j rd : RegIx) (r : Word) (ov : Bool) (s : State) :
    readBank b j (finishArith rd r ov s) = readBank b j (writeBank s.bank rd r s) :=
  readBank_congr rfl rfl rfl b j

@[simp] theorem readBank_finishFreeOV (b : Bank) (j rd : RegIx) (r : Word) (s : State) :
    readBank b j (finishFreeOV rd r s) = readBank b j (writeBank s.bank rd r s) :=
  readBank_congr rfl rfl rfl b j

end Sys2Proof.Machine
end

