-- ==== Sys2Proof/Laws/Operands.lean ====
section
/-! SUPPORT. What the operand forms compute: extended immediates, effective addresses, comparisons, shifts. -/

namespace Sys2Proof.Machine

/-- A sign-extended immediate keeps its signed value. -/
theorem toInt_extend_sign {n : Nat} (hn : n ≤ 32) (v : BitVec n) : (extend .sign v).toInt = v.toInt := by
  simp [extend, BitVec.toInt_signExtend_of_le hn]

/-- A zero-extended immediate keeps its unsigned value. -/
theorem toNat_extend_zero {n : Nat} (hn : n ≤ 32) (v : BitVec n) : (extend .zero v).toNat = v.toNat := by
  rw [extend, BitVec.toNat_setWidth]
  exact Nat.mod_eq_of_lt (v.isLt.trans_le (Nat.pow_le_pow_right (by omega) hn))

/-- The effective address depends on the base register and the parameters alone. -/
theorem effAddr_congr {s t : State} {rsa : RegIx} (imm : BitVec 14) (hc : t.cfg = s.cfg)
    (hr : readReg rsa t = readReg rsa s) : effAddr rsa imm t = effAddr rsa imm s := by
  simp [effAddr, hc, hr]

/-- The order of two registers, signed or unsigned as the parameter says. -/
theorem greater_iff (c : Config) (a b : Word) :
    greater c a b = true ↔ if c.cmpSigned then b.toInt < a.toInt else b.toNat < a.toNat := by
  cases h : c.cmpSigned <;> simp [greater, h, BitVec.slt_iff_toInt_lt, BitVec.ult]

/-- A compare gives 0 exactly when the operands are equal. -/
theorem compResult_eq_zero_iff (c : Config) (a b : Word) : compResult c a b = 0 ↔ a = b := by
  unfold compResult
  split
  · simp [*]
  · split <;> simp [*]

/-- A shift by less than the width is the exact one, whatever `ShiftOver` is. -/
theorem shiftResult_of_lt (c : Config) (op : ShiftOp) (a : Word) {n : Nat} (h : n < 32) :
    shiftResult c op a n = shiftExact op a n := if_pos h

/-- A shift by the width or more is what `ShiftOver` says. -/
theorem shiftResult_of_ge (c : Config) (op : ShiftOp) (a : Word) {n : Nat} (h : 32 ≤ n) :
    shiftResult c op a n = match c.shiftOver with
      | .mathematical => shiftOut op a
      | .implementation => Config.openShift op a n := if_neg (by omega)

end Sys2Proof.Machine
end

