-- ==== Sys2Proof/Laws/PerInstr.lean ====
section
/-! SUPPORT. The word of every instruction has the fixed bits of its row of spec/opcode_table.json, under both opcode maps,
whatever its operands: one lemma per instruction. -/

namespace Sys2Proof.Laws

/-- The column "mask" of the row: the fixed bits. -/
def rowMask : Instr → Word
  | .add _ _ _ => 0xFC00000F
  | .sub _ _ _ => 0xFC00000F
  | .addu _ _ _ => 0xFC00000F
  | .subu _ _ _ => 0xFC00000F
  | .not _ _ => 0xFC00000F
  | .and _ _ _ => 0xFC00000F
  | .or _ _ _ => 0xFC00000F
  | .xor _ _ _ => 0xFC00000F
  | .sal _ _ _ _ => 0xFC00000F
  | .sar _ _ _ _ => 0xFC00000F
  | .sll _ _ _ _ => 0xFC00000F
  | .slr _ _ _ _ => 0xFC00000F
  | .comp _ _ _ => 0xFC00000F
  | .addi _ _ _ => 0xFC00000F
  | .subi _ _ _ => 0xFC00000F
  | .addui _ _ _ => 0xFC00000F
  | .subui _ _ _ => 0xFC00000F
  | .noti _ _ => 0xFC00000F
  | .andi _ _ _ => 0xFC00000F
  | .ori _ _ _ => 0xFC00000F
  | .xori _ _ _ => 0xFC00000F
  | .sali _ _ _ => 0xFC00000F
  | .sari _ _ _ => 0xFC00000F
  | .slli _ _ _ => 0xFC00000F
  | .slri _ _ _ => 0xFC00000F
  | .compi _ _ _ => 0xFC00000F
  | .lw _ _ _ => 0xFC00C000
  | .lh _ _ _ => 0xFC00C000
  | .lth _ _ _ => 0xFC00C000
  | .lb _ _ _ => 0xFC00C000
  | .sw _ _ _ => 0xFF000000
  | .sh _ _ _ => 0xFF000000
  | .sth _ _ _ => 0xFF000000
  | .sb _ _ _ => 0xFF000000
  | .li _ _ => 0xFC1F0000
  | .lsi _ _ => 0xFC1F0000
  | .lgi _ _ => 0xFC1F0000
  | .lui _ _ => 0xFC1F0000
  | .lusi _ _ => 0xFC1F0000
  | .lugi _ _ => 0xFC1F0000
  | .lni _ _ => 0xFC1F0000
  | .lnsi _ _ => 0xFC1F0000
  | .lngi _ _ => 0xFC1F0000
  | .luni _ _ => 0xFC1F0000
  | .lunsi _ _ => 0xFC1F0000
  | .lungi _ _ => 0xFC1F0000
  | .beq _ _ _ => 0xFC000003
  | .bne _ _ _ => 0xFC000003
  | .bgt _ _ _ => 0xFC000003
  | .blt _ _ _ => 0xFC000003
  | .j _ => 0xFC1F0000
  | .jal _ => 0xFC1F0000
  | .jr _ _ => 0xFC000000
  | .jrl _ _ => 0xFC000000
  | .syscall _ => 0xFC00FF00
  | .sysret => 0xFC00FF00
  | .stspr _ _ => 0xFC00FF00
  | .ldspr _ _ => 0xFC00FF00
  | .sync => 0xFC00FF00
  | .lock _ _ => 0xFC00FF00
  | .test _ _ => 0xFC00FF00
  | .pmir _ => 0xFC00FF00
  | .pmd _ => 0xFC00FF00

/-- The columns "match" and "match_alt" of the row: the value of the fixed bits under each map. -/
def rowMatch : OpMap → Instr → Word
  | .rev02, .add _ _ _ => 0x4C000000
  | .rev02, .sub _ _ _ => 0x4C000001
  | .rev02, .addu _ _ _ => 0x4C000002
  | .rev02, .subu _ _ _ => 0x4C000003
  | .rev02, .not _ _ => 0x4C000004
  | .rev02, .and _ _ _ => 0x4C000005
  | .rev02, .or _ _ _ => 0x4C000006
  | .rev02, .xor _ _ _ => 0x4C000007
  | .rev02, .sal _ _ _ _ => 0x4C000008
  | .rev02, .sar _ _ _ _ => 0x4C000009
  | .rev02, .sll _ _ _ _ => 0x4C00000A
  | .rev02, .slr _ _ _ _ => 0x4C00000B
  | .rev02, .comp _ _ _ => 0x4C00000C
  | .rev02, .addi _ _ _ => 0x58000000
  | .rev02, .subi _ _ _ => 0x58000001
  | .rev02, .addui _ _ _ => 0x58000002
  | .rev02, .subui _ _ _ => 0x58000003
  | .rev02, .noti _ _ => 0x58000004
  | .rev02, .andi _ _ _ => 0x58000005
  | .rev02, .ori _ _ _ => 0x58000006
  | .rev02, .xori _ _ _ => 0x58000007
  | .rev02, .sali _ _ _ => 0x58000008
  | .rev02, .sari _ _ _ => 0x58000009
  | .rev02, .slli _ _ _ => 0x5800000A
  | .rev02, .slri _ _ _ => 0x5800000B
  | .rev02, .compi _ _ _ => 0x5800000C
  | .rev02, .lw _ _ _ => 0x78000000
  | .rev02, .lh _ _ _ => 0x78004000
  | .rev02, .lth _ _ _ => 0x78008000
  | .rev02, .lb _ _ _ => 0x7800C000
  | .rev02, .sw _ _ _ => 0x74000000
  | .rev02, .sh _ _ _ => 0x75000000
  | .rev02, .sth _ _ _ => 0x76000000
  | .rev02, .sb _ _ _ => 0x77000000
  | .rev02, .li _ _ => 0x40000000
  | .rev02, .lsi _ _ => 0x40010000
  | .rev02, .lgi _ _ => 0x40020000
  | .rev02, .lui _ _ => 0x40030000
  | .rev02, .lusi _ _ => 0x40040000
  | .rev02, .lugi _ _ => 0x40050000
  | .rev02, .lni _ _ => 0x40080000
  | .rev02, .lnsi _ _ => 0x40090000
  | .rev02, .lngi _ _ => 0x400A0000
  | .rev02, .luni _ _ => 0x400B0000
  | .rev02, .lunsi _ _ => 0x400C0000
  | .rev02, .lungi _ _ => 0x400D0000
  | .rev02, .beq _ _ _ => 0x34000000
  | .rev02, .bne _ _ _ => 0x34000001
  | .rev02, .bgt _ _ _ => 0x34000002
  | .rev02, .blt _ _ _ => 0x34000003
  | .rev02, .j _ => 0x30000000
  | .rev02, .jal _ => 0x10000000
  | .rev02, .jr _ _ => 0x30000000
  | .rev02, .jrl _ _ => 0x10000000
  | .rev02, .syscall _ => 0x80000000
  | .rev02, .sysret => 0x80000100
  | .rev02, .stspr _ _ => 0x80000200
  | .rev02, .ldspr _ _ => 0x80000300
  | .rev02, .sync => 0x80000400
  | .rev02, .lock _ _ => 0x80000500
  | .rev02, .test _ _ => 0x80000600
  | .rev02, .pmir _ => 0x80000700
  | .rev02, .pmd _ => 0x80000800
  | .summary, .add _ _ _ => 0x04000000
  | .summary, .sub _ _ _ => 0x04000001
  | .summary, .addu _ _ _ => 0x04000002
  | .summary, .subu _ _ _ => 0x04000003
  | .summary, .not _ _ => 0x04000004
  | .summary, .and _ _ _ => 0x04000005
  | .summary, .or _ _ _ => 0x04000006
  | .summary, .xor _ _ _ => 0x04000007
  | .summary, .sal _ _ _ _ => 0x04000008
  | .summary, .sar _ _ _ _ => 0x04000009
  | .summary, .sll _ _ _ _ => 0x0400000A
  | .summary, .slr _ _ _ _ => 0x0400000B
  | .summary, .comp _ _ _ => 0x0400000C
  | .summary, .addi _ _ _ => 0x0C000000
  | .summary, .subi _ _ _ => 0x0C000001
  | .summary, .addui _ _ _ => 0x0C000002
  | .summary, .subui _ _ _ => 0x0C000003
  | .summary, .noti _ _ => 0x0C000004
  | .summary, .andi _ _ _ => 0x0C000005
  | .summary, .ori _ _ _ => 0x0C000006
  | .summary, .xori _ _ _ => 0x0C000007
  | .summary, .sali _ _ _ => 0x0C000008
  | .summary, .sari _ _ _ => 0x0C000009
  | .summary, .slli _ _ _ => 0x0C00000A
  | .summary, .slri _ _ _ => 0x0C00000B
  | .summary, .compi _ _ _ => 0x0C00000C
  | .summary, .lw _ _ _ => 0x48000000
  | .summary, .lh _ _ _ => 0x48004000
  | .summary, .lth _ _ _ => 0x48008000
  | .summary, .lb _ _ _ => 0x4800C000
  | .summary, .sw _ _ _ => 0x68000000
  | .summary, .sh _ _ _ => 0x69000000
  | .summary, .sth _ _ _ => 0x6A000000
  | .summary, .sb _ _ _ => 0x6B000000
  | .summary, .li _ _ => 0x08000000
  | .summary, .lsi _ _ => 0x08010000
  | .summary, .lgi _ _ => 0x08020000
  | .summary, .lui _ _ => 0x08030000
  | .summary, .lusi _ _ => 0x08040000
  | .summary, .lugi _ _ => 0x08050000
  | .summary, .lni _ _ => 0x08080000
  | .summary, .lnsi _ _ => 0x08090000
  | .summary, .lngi _ _ => 0x080A0000
  | .summary, .luni _ _ => 0x080B0000
  | .summary, .lunsi _ _ => 0x080C0000
  | .summary, .lungi _ _ => 0x080D0000
  | .summary, .beq _ _ _ => 0x14000000
  | .summary, .bne _ _ _ => 0x14000001
  | .summary, .bgt _ _ _ => 0x14000002
  | .summary, .blt _ _ _ => 0x14000003
  | .summary, .j _ => 0x18000000
  | .summary, .jal _ => 0x1C000000
  | .summary, .jr _ _ => 0x18000000
  | .summary, .jrl _ _ => 0x1C000000
  | .summary, .syscall _ => 0x20000000
  | .summary, .sysret => 0x20000100
  | .summary, .stspr _ _ => 0x20000200
  | .summary, .ldspr _ _ => 0x20000300
  | .summary, .sync => 0x20000400
  | .summary, .lock _ _ => 0x20000500
  | .summary, .test _ _ => 0x20000600
  | .summary, .pmir _ => 0x20000700
  | .summary, .pmd _ => 0x20000800

/-! ## The fixed bits of each format -/

variable (m : OpMap)

theorem encodeR_fixed (rd rsa rsb : RegIx) (shft : BitVec 7) (f : BitVec 4) :
    encodeR m rd rsa rsb shft f &&& 0xFC00000F = opcodeFor m .integer ++ (0 : BitVec 22) ++ f := by
  apply BitVec.eq_of_getLsbD_eq
  intro k hk
  simp only [encodeR, BitVec.getLsbD_and, BitVec.getLsbD_append]
  interval_cases k <;> simp

theorem encodeI_fixed (rd rsa : RegIx) (imm : BitVec 12) (f : BitVec 4) :
    encodeI m rd rsa imm f &&& 0xFC00000F = opcodeFor m .immediate ++ (0 : BitVec 22) ++ f := by
  apply BitVec.eq_of_getLsbD_eq
  intro k hk
  simp only [encodeI, BitVec.getLsbD_and, BitVec.getLsbD_append]
  interval_cases k <;> simp

theorem encodeL_fixed (rd rsa : RegIx) (f : BitVec 2) (imm : BitVec 14) :
    encodeL m rd rsa f imm &&& 0xFC00C000 = opcodeFor m .load ++ (0 : BitVec 10) ++ f ++ (0 : BitVec 14) := by
  apply BitVec.eq_of_getLsbD_eq
  intro k hk
  simp only [encodeL, BitVec.getLsbD_and, BitVec.getLsbD_append]
  interval_cases k <;> simp

theorem encodeLI_fixed (rd : RegIx) (f : BitVec 5) (imm : BitVec 16) :
    encodeLI m rd f imm &&& 0xFC1F0000 = opcodeFor m .loadImmediate ++ (0 : BitVec 5) ++ f ++ (0 : BitVec 16) := by
  apply BitVec.eq_of_getLsbD_eq
  intro k hk
  simp only [encodeLI, BitVec.getLsbD_and, BitVec.getLsbD_append]
  interval_cases k <;> simp

theorem encodeS_fixed (f : BitVec 2) (rsb rsa : RegIx) (imm : BitVec 14) :
    encodeS m f rsb rsa imm &&& 0xFF000000 = opcodeFor m .store ++ f ++ (0 : BitVec 24) := by
  apply BitVec.eq_of_getLsbD_eq
  intro k hk
  simp only [encodeS, BitVec.getLsbD_and, BitVec.getLsbD_append]
  interval_cases k <;> simp

theorem encodeB_fixed (rsa rsb : RegIx) (imm : BitVec 14) (f : BitVec 2) :
    encodeB m rsa rsb imm f &&& 0xFC000003 = opcodeFor m .branch ++ (0 : BitVec 24) ++ f := by
  apply BitVec.eq_of_getLsbD_eq
  intro k hk
  simp only [encodeB, BitVec.getLsbD_and, BitVec.getLsbD_append]
  interval_cases k <;> simp

theorem encodeJ_fixed (c : OpClass) (rsa : RegIx) (imm : BitVec 21) :
    encodeJ m c rsa imm &&& 0xFC000000 = opcodeFor m c ++ (0 : BitVec 26) := by
  apply BitVec.eq_of_getLsbD_eq
  intro k hk
  simp only [encodeJ, BitVec.getLsbD_and, BitVec.getLsbD_append]
  interval_cases k <;> simp

theorem encodeSys_fixed (rd rsa : RegIx) (f : BitVec 8) (imm : BitVec 8) :
    encodeSys m rd rsa f imm &&& 0xFC00FF00 = opcodeFor m .system ++ (0 : BitVec 10) ++ f ++ (0 : BitVec 8) := by
  apply BitVec.eq_of_getLsbD_eq
  intro k hk
  simp only [encodeSys, BitVec.getLsbD_and, BitVec.getLsbD_append]
  interval_cases k <;> simp

theorem encodeJ_zero_fixed (c : OpClass) (imm : BitVec 21) :
    encodeJ m c 0 imm &&& 0xFC1F0000 = opcodeFor m c ++ (0 : BitVec 26) := by
  apply BitVec.eq_of_getLsbD_eq
  intro k hk
  simp only [encodeJ, BitVec.getLsbD_and, BitVec.getLsbD_append]
  interval_cases k <;> simp

/-- The fixed bits of the instruction's word are those of its row. -/
def EncodesItsRow.Statement (i : Instr) : Prop := ∀ m : OpMap, encode m i &&& rowMask i = rowMatch m i

namespace EncodesItsRow

theorem add (rd rsa rsb : RegIx) : Statement (.add rd rsa rsb) := by
  intro m
  exact Eq.trans (by apply encodeR_fixed) (by cases m <;> rfl)

theorem sub (rd rsa rsb : RegIx) : Statement (.sub rd rsa rsb) := by
  intro m
  exact Eq.trans (by apply encodeR_fixed) (by cases m <;> rfl)

theorem addu (rd rsa rsb : RegIx) : Statement (.addu rd rsa rsb) := by
  intro m
  exact Eq.trans (by apply encodeR_fixed) (by cases m <;> rfl)

theorem subu (rd rsa rsb : RegIx) : Statement (.subu rd rsa rsb) := by
  intro m
  exact Eq.trans (by apply encodeR_fixed) (by cases m <;> rfl)

theorem not (rd rsa : RegIx) : Statement (.not rd rsa) := by
  intro m
  exact Eq.trans (by apply encodeR_fixed) (by cases m <;> rfl)

theorem and (rd rsa rsb : RegIx) : Statement (.and rd rsa rsb) := by
  intro m
  exact Eq.trans (by apply encodeR_fixed) (by cases m <;> rfl)

theorem or (rd rsa rsb : RegIx) : Statement (.or rd rsa rsb) := by
  intro m
  exact Eq.trans (by apply encodeR_fixed) (by cases m <;> rfl)

theorem xor (rd rsa rsb : RegIx) : Statement (.xor rd rsa rsb) := by
  intro m
  exact Eq.trans (by apply encodeR_fixed) (by cases m <;> rfl)

theorem sal (rd rsa rsb : RegIx) (shft : BitVec 7) : Statement (.sal rd rsa rsb shft) := by
  intro m
  exact Eq.trans (by apply encodeR_fixed) (by cases m <;> rfl)

theorem sar (rd rsa rsb : RegIx) (shft : BitVec 7) : Statement (.sar rd rsa rsb shft) := by
  intro m
  exact Eq.trans (by apply encodeR_fixed) (by cases m <;> rfl)

theorem sll (rd rsa rsb : RegIx) (shft : BitVec 7) : Statement (.sll rd rsa rsb shft) := by
  intro m
  exact Eq.trans (by apply encodeR_fixed) (by cases m <;> rfl)

theorem slr (rd rsa rsb : RegIx) (shft : BitVec 7) : Statement (.slr rd rsa rsb shft) := by
  intro m
  exact Eq.trans (by apply encodeR_fixed) (by cases m <;> rfl)

theorem comp (rd rsa rsb : RegIx) : Statement (.comp rd rsa rsb) := by
  intro m
  exact Eq.trans (by apply encodeR_fixed) (by cases m <;> rfl)

theorem addi (rd rsa : RegIx) (imm : BitVec 12) : Statement (.addi rd rsa imm) := by
  intro m
  exact Eq.trans (by apply encodeI_fixed) (by cases m <;> rfl)

theorem subi (rd rsa : RegIx) (imm : BitVec 12) : Statement (.subi rd rsa imm) := by
  intro m
  exact Eq.trans (by apply encodeI_fixed) (by cases m <;> rfl)

theorem addui (rd rsa : RegIx) (imm : BitVec 12) : Statement (.addui rd rsa imm) := by
  intro m
  exact Eq.trans (by apply encodeI_fixed) (by cases m <;> rfl)

theorem subui (rd rsa : RegIx) (imm : BitVec 12) : Statement (.subui rd rsa imm) := by
  intro m
  exact Eq.trans (by apply encodeI_fixed) (by cases m <;> rfl)

theorem noti (rd : RegIx) (imm : BitVec 12) : Statement (.noti rd imm) := by
  intro m
  exact Eq.trans (by apply encodeI_fixed) (by cases m <;> rfl)

theorem andi (rd rsa : RegIx) (imm : BitVec 12) : Statement (.andi rd rsa imm) := by
  intro m
  exact Eq.trans (by apply encodeI_fixed) (by cases m <;> rfl)

theorem ori (rd rsa : RegIx) (imm : BitVec 12) : Statement (.ori rd rsa imm) := by
  intro m
  exact Eq.trans (by apply encodeI_fixed) (by cases m <;> rfl)

theorem xori (rd rsa : RegIx) (imm : BitVec 12) : Statement (.xori rd rsa imm) := by
  intro m
  exact Eq.trans (by apply encodeI_fixed) (by cases m <;> rfl)

theorem sali (rd rsa : RegIx) (imm : BitVec 12) : Statement (.sali rd rsa imm) := by
  intro m
  exact Eq.trans (by apply encodeI_fixed) (by cases m <;> rfl)

theorem sari (rd rsa : RegIx) (imm : BitVec 12) : Statement (.sari rd rsa imm) := by
  intro m
  exact Eq.trans (by apply encodeI_fixed) (by cases m <;> rfl)

theorem slli (rd rsa : RegIx) (imm : BitVec 12) : Statement (.slli rd rsa imm) := by
  intro m
  exact Eq.trans (by apply encodeI_fixed) (by cases m <;> rfl)

theorem slri (rd rsa : RegIx) (imm : BitVec 12) : Statement (.slri rd rsa imm) := by
  intro m
  exact Eq.trans (by apply encodeI_fixed) (by cases m <;> rfl)

theorem compi (rd rsa : RegIx) (imm : BitVec 12) : Statement (.compi rd rsa imm) := by
  intro m
  exact Eq.trans (by apply encodeI_fixed) (by cases m <;> rfl)

theorem lw (rd rsa : RegIx) (imm : BitVec 14) : Statement (.lw rd rsa imm) := by
  intro m
  exact Eq.trans (by apply encodeL_fixed) (by cases m <;> rfl)

theorem lh (rd rsa : RegIx) (imm : BitVec 14) : Statement (.lh rd rsa imm) := by
  intro m
  exact Eq.trans (by apply encodeL_fixed) (by cases m <;> rfl)

theorem lth (rd rsa : RegIx) (imm : BitVec 14) : Statement (.lth rd rsa imm) := by
  intro m
  exact Eq.trans (by apply encodeL_fixed) (by cases m <;> rfl)

theorem lb (rd rsa : RegIx) (imm : BitVec 14) : Statement (.lb rd rsa imm) := by
  intro m
  exact Eq.trans (by apply encodeL_fixed) (by cases m <;> rfl)

theorem sw (rsb rsa : RegIx) (imm : BitVec 14) : Statement (.sw rsb rsa imm) := by
  intro m
  exact Eq.trans (by apply encodeS_fixed) (by cases m <;> rfl)

theorem sh (rsb rsa : RegIx) (imm : BitVec 14) : Statement (.sh rsb rsa imm) := by
  intro m
  exact Eq.trans (by apply encodeS_fixed) (by cases m <;> rfl)

theorem sth (rsb rsa : RegIx) (imm : BitVec 14) : Statement (.sth rsb rsa imm) := by
  intro m
  exact Eq.trans (by apply encodeS_fixed) (by cases m <;> rfl)

theorem sb (rsb rsa : RegIx) (imm : BitVec 14) : Statement (.sb rsb rsa imm) := by
  intro m
  exact Eq.trans (by apply encodeS_fixed) (by cases m <;> rfl)

theorem li (rd : RegIx) (imm : BitVec 16) : Statement (.li rd imm) := by
  intro m
  exact Eq.trans (by apply encodeLI_fixed) (by cases m <;> rfl)

theorem lsi (rd : RegIx) (imm : BitVec 16) : Statement (.lsi rd imm) := by
  intro m
  exact Eq.trans (by apply encodeLI_fixed) (by cases m <;> rfl)

theorem lgi (rd : RegIx) (imm : BitVec 16) : Statement (.lgi rd imm) := by
  intro m
  exact Eq.trans (by apply encodeLI_fixed) (by cases m <;> rfl)

theorem lui (rd : RegIx) (imm : BitVec 16) : Statement (.lui rd imm) := by
  intro m
  exact Eq.trans (by apply encodeLI_fixed) (by cases m <;> rfl)

theorem lusi (rd : RegIx) (imm : BitVec 16) : Statement (.lusi rd imm) := by
  intro m
  exact Eq.trans (by apply encodeLI_fixed) (by cases m <;> rfl)

theorem lugi (rd : RegIx) (imm : BitVec 16) : Statement (.lugi rd imm) := by
  intro m
  exact Eq.trans (by apply encodeLI_fixed) (by cases m <;> rfl)

theorem lni (rd : RegIx) (imm : BitVec 16) : Statement (.lni rd imm) := by
  intro m
  exact Eq.trans (by apply encodeLI_fixed) (by cases m <;> rfl)

theorem lnsi (rd : RegIx) (imm : BitVec 16) : Statement (.lnsi rd imm) := by
  intro m
  exact Eq.trans (by apply encodeLI_fixed) (by cases m <;> rfl)

theorem lngi (rd : RegIx) (imm : BitVec 16) : Statement (.lngi rd imm) := by
  intro m
  exact Eq.trans (by apply encodeLI_fixed) (by cases m <;> rfl)

theorem luni (rd : RegIx) (imm : BitVec 16) : Statement (.luni rd imm) := by
  intro m
  exact Eq.trans (by apply encodeLI_fixed) (by cases m <;> rfl)

theorem lunsi (rd : RegIx) (imm : BitVec 16) : Statement (.lunsi rd imm) := by
  intro m
  exact Eq.trans (by apply encodeLI_fixed) (by cases m <;> rfl)

theorem lungi (rd : RegIx) (imm : BitVec 16) : Statement (.lungi rd imm) := by
  intro m
  exact Eq.trans (by apply encodeLI_fixed) (by cases m <;> rfl)

theorem beq (rsa rsb : RegIx) (imm : BitVec 14) : Statement (.beq rsa rsb imm) := by
  intro m
  exact Eq.trans (by apply encodeB_fixed) (by cases m <;> rfl)

theorem bne (rsa rsb : RegIx) (imm : BitVec 14) : Statement (.bne rsa rsb imm) := by
  intro m
  exact Eq.trans (by apply encodeB_fixed) (by cases m <;> rfl)

theorem bgt (rsa rsb : RegIx) (imm : BitVec 14) : Statement (.bgt rsa rsb imm) := by
  intro m
  exact Eq.trans (by apply encodeB_fixed) (by cases m <;> rfl)

theorem blt (rsa rsb : RegIx) (imm : BitVec 14) : Statement (.blt rsa rsb imm) := by
  intro m
  exact Eq.trans (by apply encodeB_fixed) (by cases m <;> rfl)

theorem j (imm : BitVec 21) : Statement (.j imm) := by
  intro m
  exact Eq.trans (by apply encodeJ_zero_fixed) (by cases m <;> rfl)

theorem jal (imm : BitVec 21) : Statement (.jal imm) := by
  intro m
  exact Eq.trans (by apply encodeJ_zero_fixed) (by cases m <;> rfl)

theorem jr (rsa : RegIx) (imm : BitVec 21) : Statement (.jr rsa imm) := by
  intro m
  exact Eq.trans (by apply encodeJ_fixed) (by cases m <;> rfl)

theorem jrl (rsa : RegIx) (imm : BitVec 21) : Statement (.jrl rsa imm) := by
  intro m
  exact Eq.trans (by apply encodeJ_fixed) (by cases m <;> rfl)

theorem syscall (number : Byte) : Statement (.syscall number) := by
  intro m
  exact Eq.trans (by apply encodeSys_fixed) (by cases m <;> rfl)

theorem sysret : Statement (.sysret) := by
  intro m
  exact Eq.trans (by apply encodeSys_fixed) (by cases m <;> rfl)

theorem stspr (rsa : RegIx) (spr : Byte) : Statement (.stspr rsa spr) := by
  intro m
  exact Eq.trans (by apply encodeSys_fixed) (by cases m <;> rfl)

theorem ldspr (rd : RegIx) (spr : Byte) : Statement (.ldspr rd spr) := by
  intro m
  exact Eq.trans (by apply encodeSys_fixed) (by cases m <;> rfl)

theorem sync : Statement (.sync) := by
  intro m
  exact Eq.trans (by apply encodeSys_fixed) (by cases m <;> rfl)

theorem lock (rd rsa : RegIx) : Statement (.lock rd rsa) := by
  intro m
  exact Eq.trans (by apply encodeSys_fixed) (by cases m <;> rfl)

theorem test (rd rsa : RegIx) : Statement (.test rd rsa) := by
  intro m
  exact Eq.trans (by apply encodeSys_fixed) (by cases m <;> rfl)

theorem pmir (level : Byte) : Statement (.pmir level) := by
  intro m
  exact Eq.trans (by apply encodeSys_fixed) (by cases m <;> rfl)

theorem pmd (level : Byte) : Statement (.pmd level) := by
  intro m
  exact Eq.trans (by apply encodeSys_fixed) (by cases m <;> rfl)

end EncodesItsRow

end Sys2Proof.Laws
end

