-- ==== Sys2Proof/Laws/Step.lean ====
section
/-! SUPPORT. What each shared operation of the step can do, said once: if it answers next t, then …; the provers cite these
and do not unfold the operation. -/

namespace Sys2Proof.Machine

variable {s t : State}

/-- Two next outcomes are equal exactly when the states are. -/
theorem next_inj {a b : State} : ((.next a : Result) = .next b) ↔ a = b := by simp

/-! ## Exceptions and interrupts -/

/-- With no `ExcEntry` an exception is a fault that carries the state, ECODE written. -/
theorem raise_eq_fault (x : ExcCode) (h : s.cfg.excEntryGiven = false) :
    raise x s = .fault (.exception x (recordException x s)) := by
  simp [raise, h]

/-- An exception gives a next state only where `ExcEntry` is given, and then that one. -/
theorem raise_next {x : ExcCode} (h : raise x s = .next t) :
    s.cfg.excEntryGiven = true ∧ t = { Config.openExcEntry (recordException x s) x with cfg := s.cfg } := by
  unfold raise at h
  split at h
  · exact ⟨‹_›, by simpa using h.symm⟩
  · cases h

/-- The one fault an exception ends in. -/
theorem raise_fault {x : ExcCode} {f : Fault} (h : raise x s = .fault f) :
    s.cfg.excEntryGiven = false ∧ f = .exception x (recordException x s) := by
  unfold raise at h
  split at h
  · cases h
  · exact ⟨Bool.eq_false_iff.mpr ‹_›, by simpa using h.symm⟩

/-- With no `IntEntry` an interrupt is a fault that carries the state, its pending bit cleared. -/
theorem takeInterrupt_eq_fault (v : IntVec) (h : s.cfg.intEntryGiven = false) :
    takeInterrupt v s = .fault (.interrupt v (clearPending v s)) := by
  simp [takeInterrupt, h]

/-- With `IntEntry` an interrupt goes on at its vector. -/
theorem takeInterrupt_eq_next (v : IntVec) (h : s.cfg.intEntryGiven = true) :
    takeInterrupt v s = .next (enterInterrupt v s) := by
  simp [takeInterrupt, h]

/-- An interrupt gives a next state only where `IntEntry` is given, and then that one. -/
theorem takeInterrupt_next {v : IntVec} (h : takeInterrupt v s = .next t) :
    s.cfg.intEntryGiven = true ∧ t = enterInterrupt v s := by
  unfold takeInterrupt at h
  split at h
  · exact ⟨‹_›, by simpa using h.symm⟩
  · cases h

/-- What an interrupt's entry fixes: the pc at the vector, the model arguments, ROI's pending bit clear after ROI. -/
@[simp] theorem enterInterrupt_pc (v : IntVec) : (enterInterrupt v s).pc = vectorAddress v := rfl
@[simp] theorem enterInterrupt_cfg (v : IntVec) : (enterInterrupt v s).cfg = s.cfg := rfl
@[simp] theorem enterInterrupt_roiPending : (enterInterrupt .roi s).roiPending = false := rfl

/-! ## Recognition -/

/-- An interrupt can be recognised exactly when it is pending and enabled: ROI, or an extra vector of the machine. -/
theorem mem_recognisable (v : IntVec) :
    v ∈ recognisable s ↔ intEnabled s v = true ∧
      ((v = .roi ∧ s.roiPending = true) ∨ ∃ e ∈ s.cfg.extraVectors, e.address ∈ s.extraPending ∧ v = .extra e) := by
  simp only [recognisable, List.mem_filter, List.mem_append, List.mem_map, List.contains_iff_mem]
  split <;> simp_all [and_assoc, and_comm, @eq_comm _ v]

/-- A choice of the lowest vector fails only where there is nothing to choose. -/
theorem lowestVector_eq_none_iff (l : List IntVec) : lowestVector l = none ↔ l = [] := by
  cases l with
  | nil => simp [lowestVector]
  | cons v rest =>
    simp only [lowestVector]
    split
    · simp
    · split <;> simp

/-- The lowest vector is one of the list, and none of the list has a lower address. -/
theorem lowestVector_eq_some {u : IntVec} (l : List IntVec) (h : lowestVector l = some u) :
    u ∈ l ∧ ∀ w ∈ l, (vectorAddress u).toNat ≤ (vectorAddress w).toNat := by
  induction l generalizing u with
  | nil => cases h
  | cons v rest ih =>
    simp only [lowestVector] at h
    split at h
    · rename_i h0
      obtain rfl := (lowestVector_eq_none_iff rest).1 h0
      cases h
      simp
    · rename_i u' h0
      obtain ⟨h1, h2⟩ := ih h0
      split at h <;> cases h
      · exact ⟨.tail _ h1, List.forall_mem_cons.2 ⟨by omega, h2⟩⟩
      · exact ⟨.head _, List.forall_mem_cons.2 ⟨le_rfl, fun w hw => by have := h2 w hw; omega⟩⟩

/-- None is recognised exactly when none is pending and enabled. -/
theorem recognised_eq_none_iff : recognised s = none ↔ ∀ v, v ∉ recognisable s := by
  rw [recognised, lowestVector_eq_none_iff, List.eq_nil_iff_forall_not_mem]

/-- The recognised interrupt is pending and enabled, and of those it has the lowest vector address. -/
theorem recognised_eq_some {u : IntVec} (h : recognised s = some u) :
    u ∈ recognisable s ∧ ∀ w ∈ recognisable s, (vectorAddress u).toNat ≤ (vectorAddress w).toNat :=
  lowestVector_eq_some _ h

/-! ## System calls -/

/-- The level a routine runs at: the caller's, or a higher one that exists on the machine. -/
theorem routineLevel_cases (e : SysCallEntry) (s : State) :
    routineLevel e s = level s ∨
      ((level s).toNat < (routineLevel e s).toNat ∧ levelExists s.cfg (routineLevel e s) = true) := by
  unfold routineLevel
  split
  · exact .inl rfl
  · split
    · exact .inr ⟨by omega, ‹_›⟩
    · dsimp only
      split
      · rename_i h
        simp only [Bool.and_eq_true, decide_eq_true_eq] at h
        by_cases he : (level s).toNat = (Config.openRunLevel s.draws (level s) e.runPml.code).toNat
        · exact .inl (BitVec.eq_of_toNat_eq he).symm
        · exact .inr ⟨by omega, h.1⟩
      · exact .inl rfl

/-- Where the entry's level exists, or is not above the caller's, the routine runs at the higher of the two. -/
theorem routineLevel_toNat (e : SysCallEntry) (s : State)
    (h : levelExists s.cfg e.runPml.code = true ∨ e.runPml.code.toNat ≤ (level s).toNat) :
    (routineLevel e s).toNat = max (level s).toNat e.runPml.code.toNat := by
  unfold routineLevel
  split
  · omega
  · rw [if_pos (h.resolve_right ‹_›)]
    omega

/-! ## Memory access -/

/-- The alignment test passes: the access is not one the policy refuses. -/
theorem misaligned_eq_false_iff (c : Config) (a : Word) (n : Nat) :
    misaligned c a n = false ↔
      (c.alignPolicy = .strict → (n = 4 → a.toNat % 4 = 0) ∧ (n = 2 → a.toNat % 2 = 0)) := by
  have h4 : (a.extractLsb' 0 2 != 0) = decide (a.toNat % 4 ≠ 0) := by
    simp [← BitVec.toNat_inj, bne, BEq.beq]
  have h2 : (a.extractLsb' 0 1 != 0) = decide (a.toNat % 2 ≠ 0) := by
    rcases Nat.mod_two_eq_zero_or_one a.toNat with h | h <;> simp [← BitVec.toNat_inj, bne, BEq.beq, h]
  unfold misaligned
  cases c.alignPolicy
  · rw [h4, h2]
    simp
  · simp

/-- A load whose address passes both tests. -/
theorem loadFrom_eq_next (n : Nat) (rd rsa : RegIx) (imm : BitVec 14) (hm : misaligned s.cfg (effAddr rsa imm s) n = false)
    (ha : allMapped s.cfg.dataMap (effAddr rsa imm s) n = true) :
    loadFrom n rd rsa imm s =
      .next (advance { writeReg rd (readAccess s (effAddr rsa imm s) n).1 s with
        draws := s.draws + 1, device := (readAccess s (effAddr rsa imm s) n).2 }) := by
  simp [loadFrom, hm, ha]

/-- Everything a load that answers next can have done. -/
theorem loadFrom_next {n : Nat} {rd rsa : RegIx} {imm : BitVec 14} (h : loadFrom n rd rsa imm s = .next t) :
    (misaligned s.cfg (effAddr rsa imm s) n = true ∧ s.cfg.excEntryGiven = true ∧
      t = { Config.openExcEntry (recordException .misaddr s) .misaddr with cfg := s.cfg }) ∨
    (misaligned s.cfg (effAddr rsa imm s) n = false ∧ allMapped s.cfg.dataMap (effAddr rsa imm s) n = true ∧
      t = advance { writeReg rd (readAccess s (effAddr rsa imm s) n).1 s with
        draws := s.draws + 1, device := (readAccess s (effAddr rsa imm s) n).2 }) := by
  simp only [loadFrom] at h
  split at h
  · exact .inl ⟨‹_›, raise_next h⟩
  · split at h
    · exact .inr ⟨by simpa using ‹¬ misaligned _ _ _ = true›, ‹_›, by simpa using h.symm⟩
    · cases h

/-- A store whose address passes both tests. -/
theorem storeTo_eq_next (n : Nat) (rsb rsa : RegIx) (imm : BitVec 14) (hm : misaligned s.cfg (effAddr rsa imm s) n = false)
    (ha : allMapped s.cfg.dataMap (effAddr rsa imm s) n = true) :
    storeTo n rsb rsa imm s =
      .next (advance { s with
        dmem := (writeAccess s (effAddr rsa imm s) n (readReg rsb s)).1,
        device := (writeAccess s (effAddr rsa imm s) n (readReg rsb s)).2 }) := by
  simp [storeTo, hm, ha]

/-- Everything a store that answers next can have done. -/
theorem storeTo_next {n : Nat} {rsb rsa : RegIx} {imm : BitVec 14} (h : storeTo n rsb rsa imm s = .next t) :
    (misaligned s.cfg (effAddr rsa imm s) n = true ∧ s.cfg.excEntryGiven = true ∧
      t = { Config.openExcEntry (recordException .misaddr s) .misaddr with cfg := s.cfg }) ∨
    (misaligned s.cfg (effAddr rsa imm s) n = false ∧ allMapped s.cfg.dataMap (effAddr rsa imm s) n = true ∧
      t = advance { s with
        dmem := (writeAccess s (effAddr rsa imm s) n (readReg rsb s)).1,
        device := (writeAccess s (effAddr rsa imm s) n (readReg rsb s)).2 }) := by
  simp only [storeTo] at h
  split at h
  · exact .inl ⟨‹_›, raise_next h⟩
  · split at h
    · exact .inr ⟨by simpa using ‹¬ misaligned _ _ _ = true›, ‹_›, by simpa using h.symm⟩
    · cases h

/-! ## Shifts, load immediates, branches -/

/-- Everything a register shift that answers next can have done. -/
theorem shiftByReg_next {op : ShiftOp} {rd rsa rsb : RegIx} {shft : BitVec 7}
    (h : shiftByReg op rd rsa rsb shft s = .next t) :
    shft = 0 ∧ t = finishFreeOV rd (shiftResult s.cfg op (readReg rsa s) (readReg rsb s).toNat) s := by
  unfold shiftByReg at h
  split at h
  · exact ⟨‹_›, by simpa using h.symm⟩
  · cases h

/-- Everything a load immediate does. -/
theorem loadImm_next {f : ImmFile} {form : ImmForm} {rd : RegIx} {imm : BitVec 16} (h : loadImm f form rd imm s = .next t) :
    t = advance (writeFile f rd (immValue s.cfg.liMode form (readFile f rd s) imm) s) := by
  simpa [loadImm] using h.symm

/-- Everything a branch does. -/
theorem branchIf_next {cond : Bool} {imm : BitVec 14} (h : branchIf cond imm s = .next t) :
    t = if cond then setPc (branchTarget imm s) s else advance s := by
  simpa [branchIf] using h.symm

/-! ## The system instructions -/

/-- Everything a system call that answers next can have done. -/
theorem execSyscall_next {n : Byte} (h : execSyscall n s = .next t) :
    (s.cfg.excEntryGiven = true ∧ t.cfg = s.cfg) ∨
    (∃ rows e, s.cfg.sysCallTable = some rows ∧ s.bank ≠ .sys ∧ s.sysctp ≠ 0 ∧ sysCallLookup rows s.sysctp n = some e ∧
      e.minPml.code.toNat ≤ (level s).toNat ∧ t = enterSysCall e s) := by
  unfold execSyscall at h
  split at h
  · cases h
  · split at h
    · cases h
    · split at h
      · obtain ⟨h1, rfl⟩ := raise_next h
        exact .inl ⟨h1, rfl⟩
      · split at h
        · obtain ⟨h1, rfl⟩ := raise_next h
          exact .inl ⟨h1, rfl⟩
        · split at h
          · obtain ⟨h1, rfl⟩ := raise_next h
            exact .inl ⟨by simpa using h1, by simp⟩
          · exact .inr ⟨_, _, ‹_›, ‹_›, ‹_›, ‹_›, by omega, by simpa using h.symm⟩

/-- Everything a return from a system call does. -/
theorem execSysret_next (h : execSysret s = .next t) : s.bank = .sys ∧ t = returnFromSysCall s := by
  unfold execSysret at h
  split at h
  · exact ⟨‹_›, by simpa using h.symm⟩
  · cases h

/-- Everything a register write that answers next can have done. -/
theorem execStspr_next {rsa : RegIx} {a : Byte} (h : execStspr rsa a s = .next t) :
    ∃ r, sprAt s.cfg a = some r ∧ hardCoded s.cfg r = false ∧
      ((s.cfg.excEntryGiven = true ∧ t.cfg = s.cfg) ∨
        (writeLevel r ≤ (level s).toNat ∧ t = advance (writeSpr r (readReg rsa s) s))) := by
  unfold execStspr at h
  split at h
  · cases h
  · split at h
    · cases h
    · refine ⟨_, ‹_›, by simpa using ‹¬ hardCoded _ _ = true›, ?_⟩
      split at h
      · obtain ⟨h1, rfl⟩ := raise_next h
        exact .inl ⟨h1, rfl⟩
      · exact .inr ⟨by omega, by simpa using h.symm⟩

/-- Everything a register read that answers next can have done. -/
theorem execLdspr_next {rd : RegIx} {a : Byte} (h : execLdspr rd a s = .next t) :
    ∃ r, sprAt s.cfg a = some r ∧
      ((s.cfg.excEntryGiven = true ∧ t.cfg = s.cfg) ∨
        (readLevel r ≤ (level s).toNat ∧ t = advance { writeReg rd (readSpr r s) s with draws := s.draws + 1 })) := by
  unfold execLdspr at h
  split at h
  · cases h
  · refine ⟨_, ‹_›, ?_⟩
    split at h
    · obtain ⟨h1, rfl⟩ := raise_next h
      exact .inl ⟨h1, rfl⟩
    · exact .inr ⟨by omega, by simpa using h.symm⟩

/-- Everything a lock that answers next does. -/
theorem execLock_next {rd rsa : RegIx} (h : execLock rd rsa s = .next t) :
    ∃ r, s.cfg.resource = some r ∧
      t = advance { writeReg rd (lockAnswer r s.resource (readReg rsa s)).1 s with
        resource := (lockAnswer r s.resource (readReg rsa s)).2 } := by
  unfold execLock at h
  split at h
  · cases h
  · exact ⟨_, ‹_›, by simpa using h.symm⟩

/-- Everything a test that answers next does. -/
theorem execTest_next {rd rsa : RegIx} (h : execTest rd rsa s = .next t) :
    ∃ r, s.cfg.resource = some r ∧ t = advance (writeReg rd (testAnswer r s.resource (readReg rsa s)) s) := by
  unfold execTest at h
  split at h
  · cases h
  · exact ⟨_, ‹_›, by simpa using h.symm⟩

/-- Everything a permission increase request that answers next can have done. -/
theorem execPmir_next {n : Byte} (h : execPmir n s = .next t) :
    (s.cfg.excEntryGiven = true ∧ t.cfg = s.cfg) ∨ t = advance s ∨
    (s.cfg.pmlImplemented = true ∧ validLevel s.cfg n = true ∧
      (t = advance (setLevel (n.setWidth 3) s) ∨
        t = advance { setLevel (n.setWidth 3) s with draws := s.draws + 1 })) := by
  unfold execPmir at h
  split at h
  · exact .inr (.inl (by simpa using h.symm))
  · split at h
    · obtain ⟨h1, rfl⟩ := raise_next h
      exact .inl ⟨h1, rfl⟩
    · split at h
      · exact .inr (.inl (by simpa using h.symm))
      · rename_i h0 h1 _
        have hi : s.cfg.pmlImplemented = true := by simpa using h0
        have hv : validLevel s.cfg n = true := by
          cases hb : validLevel s.cfg n
          · exact absurd (.inl hb) h1
          · rfl
        split at h
        · split at h
          · exact .inr (.inr ⟨hi, hv, .inl (by simpa using h.symm)⟩)
          · obtain ⟨h1, rfl⟩ := raise_next h
            exact .inl ⟨h1, rfl⟩
        · split at h
          · exact .inr (.inr ⟨hi, hv, .inr (by simpa using h.symm)⟩)
          · obtain ⟨h1, rfl⟩ := raise_next h
            exact .inl ⟨by simpa using h1, by simp⟩

/-- Everything a permission decrease that answers next can have done. -/
theorem execPmd_next {n : Byte} (h : execPmd n s = .next t) :
    (s.cfg.excEntryGiven = true ∧ t.cfg = s.cfg) ∨ t = advance s ∨
    (s.cfg.pmlImplemented = true ∧ validLevel s.cfg n = true ∧ t = advance (setLevel (n.setWidth 3) s)) := by
  unfold execPmd at h
  split at h
  · exact .inr (.inl (by simpa using h.symm))
  · split at h
    · obtain ⟨h1, rfl⟩ := raise_next h
      exact .inl ⟨h1, rfl⟩
    · rename_i h0 h1
      refine .inr (.inr ⟨by simpa using h0, ?_, by simpa using h.symm⟩)
      cases hb : validLevel s.cfg n
      · exact absurd (.inl hb) h1
      · rfl

/-! ## The step -/

/-- Everything a co-processor word that answers next can have done. -/
theorem execCoProc_next {op : BitVec 6} {w : Word} (h : execCoProc op w s = .next t) :
    t = runCoProc w s ∨ (s.cfg.intEntryGiven = true ∧ t.cfg = s.cfg) := by
  unfold execCoProc at h
  split at h
  · split at h
    · exact .inl (by simpa using h.symm)
    · cases h
  · split at h
    · cases h
    · split at h
      · obtain ⟨h1, rfl⟩ := takeInterrupt_next h
        exact .inr ⟨h1, rfl⟩
      · cases h

/-- The pc is aligned when it is a multiple of 4. -/
theorem pcAligned_iff (pc : Word) : pcAligned pc = true ↔ pc.toNat % 4 = 0 := by
  simp [pcAligned, ← BitVec.toNat_inj]

/-- Everything a step that answers next can have done: an instruction, a co-processor word, or an entry the model was given. -/
theorem step_next (h : step s = .next t) :
    (∃ i, exec i s = .next t) ∨ (∃ w, t = runCoProc w s) ∨
    ((s.cfg.excEntryGiven = true ∨ s.cfg.intEntryGiven = true) ∧ t.cfg = s.cfg) := by
  unfold step cycle at h
  split at h
  · obtain ⟨h1, rfl⟩ := takeInterrupt_next h
    exact .inr (.inr ⟨.inr h1, rfl⟩)
  · split at h
    · unfold fetchAndPerform at h
      split at h
      · cases h
      · cases h
      · cases h
      · unfold perform at h
        split at h
        · exact .inl ⟨_, h⟩
        · rcases execCoProc_next h with rfl | ⟨h1, h2⟩
          · exact .inr (.inl ⟨_, rfl⟩)
          · exact .inr (.inr ⟨.inr h1, h2⟩)
        · cases h
    · obtain ⟨h1, rfl⟩ := raise_next h
      exact .inr (.inr ⟨.inl h1, rfl⟩)

end Sys2Proof.Machine
end

