-- ==== Sys2Proof/Machine/Names.lean ====
section
/-! DEFINITION. The names Figure 1 gives the registers (10_state.md R21, R22) and the levels' names (R45). They carry no
behaviour but ZERO (R23), RA and TMP0 (R26). -/

namespace Sys2Proof.Machine

/-- The names of GPREGF, $R0 first (10_state.md R21). -/
def gpregfNames : List String :=
  ["ZERO", "SP", "FP", "GP", "RA", "ARG0", "ARG1", "ARG2", "ARG3", "RVAL0", "RVAL1", "GR0", "GR1", "GR2", "GR3", "GR4"]
    ++ ["GR5", "GR6", "GR7", "GR8", "GR9", "GR10", "TMP0", "TMP1", "TMP2", "TMP3", "TMP4", "TMP5", "TMP6", "TMP7", "HI0", "LOW0"]

/-- The names of SYSREGF, $R0 first (10_state.md R22). -/
def sysregfNames : List String :=
  ["ZERO", "SP1", "FP1", "GP1", "RA1", "SYSARG0", "SYSARG1", "SYSARG2", "SYSARG3", "SYSARG4", "SYSARG5", "SYSRVAL0"]
    ++ ["SYSRVAL1", "SYSRVAL2", "SYSRVAL3", "SYSRVAL4", "GPR0", "GPR1", "GPR2", "GPR3", "GPR4", "GPR5", "GPR6", "GPR7"]
    ++ ["SYSTMPR0", "SYSTMPR1", "SYSTMPR2", "SYSTMPR3", "SYSTMPR4", "SYSTMPR5", "SYSREGHI0", "SYSREGLOW0"]

/-- The name of a register of a bank. -/
def regName (b : Bank) (i : RegIx) : Option String :=
  match b with
  | .user => gpregfNames[i.toNat]?
  | .sys => sysregfNames[i.toNat]?

/-- The level a value of STAT.PML stands for; 110 is Reserved (10_state.md R45). -/
def levelOfCode (p : BitVec 3) : Option Level :=
  match p with
  | 0b000#3 => some .lowUser
  | 0b001#3 => some .highUser
  | 0b010#3 => some .lowSupervisor
  | 0b011#3 => some .highSupervisor
  | 0b100#3 => some .lowHypervisor
  | 0b101#3 => some .highHypervisor
  | 0b110#3 => none
  | 0b111#3 => some .topHypervisor

end Sys2Proof.Machine
end

