-- ==== Sys2Proof/Tests/Slice0.lean ====
section
/-! SUPPORT. The model's own tests: the refusals of WellFormed, the decoding of every constructor from words of the spec, one or
two steps of each instruction from the test vectors of spec/95_test_vectors.md (V<n>, T<n>), and for each statement with
hypotheses a state and operands that meet them. -/

namespace Sys2Proof.Tests

open Sys2Proof Sys2Proof.Machine

set_option maxRecDepth 8000

/-! ## Well-formedness -/

theorem test_jr_needs_a_base : (Instr.jr 0 0x10).wellFormed = false := by decide
theorem test_jrl_needs_a_base : (Instr.jrl 0 0x10).wellFormed = false := by decide
theorem test_sal_needs_clear_shft : (Instr.sal 11 5 6 1).wellFormed = false := by decide
theorem test_sar_needs_clear_shft : (Instr.sar 11 5 6 1).wellFormed = false := by decide
theorem test_sll_needs_clear_shft : (Instr.sll 11 5 6 64).wellFormed = false := by decide
theorem test_slr_needs_clear_shft : (Instr.slr 11 5 6 127).wellFormed = false := by decide
theorem test_well_formed_terms : (Instr.jr 1 0).wellFormed = true ∧ (Instr.sal 11 5 6 0).wellFormed = true := by decide

/-! ## Decoding, every constructor, under `REV02` (95_test_vectors.md 1.2 and part 2) -/

theorem test_decode_integer :
    decodeWord .rev02 0x4D653000 = .instr (.add 11 5 6) ∧ decodeWord .rev02 0x4D653001 = .instr (.sub 11 5 6) ∧
    decodeWord .rev02 0x4D653002 = .instr (.addu 11 5 6) ∧ decodeWord .rev02 0x4D653003 = .instr (.subu 11 5 6) ∧
    decodeWord .rev02 0x4D650004 = .instr (.not 11 5) ∧ decodeWord .rev02 0x4D653005 = .instr (.and 11 5 6) ∧
    decodeWord .rev02 0x4D653006 = .instr (.or 11 5 6) ∧ decodeWord .rev02 0x4D653007 = .instr (.xor 11 5 6) ∧
    decodeWord .rev02 0x4D653008 = .instr (.sal 11 5 6 0) ∧ decodeWord .rev02 0x4D653009 = .instr (.sar 11 5 6 0) ∧
    decodeWord .rev02 0x4D65300A = .instr (.sll 11 5 6 0) ∧ decodeWord .rev02 0x4D65300B = .instr (.slr 11 5 6 0) ∧
    decodeWord .rev02 0x4D65300C = .instr (.comp 11 5 6) ∧ decodeWord .rev02 0x4D653018 = .instr (.sal 11 5 6 1) ∧
    decodeWord .rev02 0x4D65300D = .illegal (.reservedAluop 0xd) := by decide

theorem test_decode_immediate :
    decodeWord .rev02 0x5965FFF0 = .instr (.addi 11 5 0xFFF) ∧ decodeWord .rev02 0x59650011 = .instr (.subi 11 5 0x001) ∧
    decodeWord .rev02 0x59650022 = .instr (.addui 11 5 0x002) ∧ decodeWord .rev02 0x59650073 = .instr (.subui 11 5 0x007) ∧
    decodeWord .rev02 0x5960FFF4 = .instr (.noti 11 0xFFF) ∧ decodeWord .rev02 0x5965F0F5 = .instr (.andi 11 5 0xF0F) ∧
    decodeWord .rev02 0x5965FFF6 = .instr (.ori 11 5 0xFFF) ∧ decodeWord .rev02 0x5965FFF7 = .instr (.xori 11 5 0xFFF) ∧
    decodeWord .rev02 0x59650208 = .instr (.sali 11 5 0x020) ∧ decodeWord .rev02 0x5965FFF9 = .instr (.sari 11 5 0xFFF) ∧
    decodeWord .rev02 0x5965001A = .instr (.slli 11 5 0x001) ∧ decodeWord .rev02 0x5965004B = .instr (.slri 11 5 0x004) ∧
    decodeWord .rev02 0x5965800C = .instr (.compi 11 5 0x800) ∧
    decodeWord .rev02 0x5800000F = .illegal (.unlistedImmAluop 0xf) := by decide

theorem test_decode_load_store :
    decodeWord .rev02 0x79650010 = .instr (.lw 11 5 0x10) ∧ decodeWord .rev02 0x79654012 = .instr (.lh 11 5 0x12) ∧
    decodeWord .rev02 0x7965BFFF = .instr (.lth 11 5 0x3FFF) ∧ decodeWord .rev02 0x7965C013 = .instr (.lb 11 5 0x13) ∧
    decodeWord .rev02 0x74653004 = .instr (.sw 6 5 0x1804) ∧ decodeWord .rev02 0x75053001 = .instr (.sh 6 5 0x1) ∧
    decodeWord .rev02 0x76E537FF = .instr (.sth 6 5 0x3FFF) ∧ decodeWord .rev02 0x77053010 = .instr (.sb 6 5 0x10) := by
  decide

theorem test_decode_load_immediate :
    decodeWord .rev02 0x41608001 = .instr (.li 11 0x8001) ∧ decodeWord .rev02 0x41618001 = .instr (.lsi 11 0x8001) ∧
    decodeWord .rev02 0x41628001 = .instr (.lgi 11 0x8001) ∧ decodeWord .rev02 0x41638001 = .instr (.lui 11 0x8001) ∧
    decodeWord .rev02 0x41648001 = .instr (.lusi 11 0x8001) ∧ decodeWord .rev02 0x41658001 = .instr (.lugi 11 0x8001) ∧
    decodeWord .rev02 0x41688001 = .instr (.lni 11 0x8001) ∧ decodeWord .rev02 0x41698001 = .instr (.lnsi 11 0x8001) ∧
    decodeWord .rev02 0x416A8001 = .instr (.lngi 11 0x8001) ∧ decodeWord .rev02 0x416B8001 = .instr (.luni 11 0x8001) ∧
    decodeWord .rev02 0x416C8001 = .instr (.lunsi 11 0x8001) ∧ decodeWord .rev02 0x416D8001 = .instr (.lungi 11 0x8001) ∧
    decodeWord .rev02 0x41660001 = .illegal (.unlistedDsel 0x06) ∧
    decodeWord .rev02 0x41700001 = .illegal (.unlistedDsel 0x10) := by decide

theorem test_decode_branch_jump :
    decodeWord .rev02 0x37E537E0 = .instr (.beq 5 6 0x3FF8) ∧ decodeWord .rev02 0x34053041 = .instr (.bne 5 6 0x10) ∧
    decodeWord .rev02 0x34053042 = .instr (.bgt 5 6 0x10) ∧ decodeWord .rev02 0x37E537FF = .instr (.blt 5 6 0x3FFF) ∧
    decodeWord .rev02 0x33E0FFF8 = .instr (.j 0x1FFFF8) ∧ decodeWord .rev02 0x13E0FF00 = .instr (.jal 0x1FFF00) ∧
    decodeWord .rev02 0x30050100 = .instr (.jr 5 0x100) ∧ decodeWord .rev02 0x10161234 = .instr (.jrl 22 0x1234) := by
  decide

theorem test_decode_system :
    decodeWord .rev02 0x800000FF = .instr (.syscall 0xFF) ∧ decodeWord .rev02 0x80000100 = .instr .sysret ∧
    decodeWord .rev02 0x8005020C = .instr (.stspr 5 0x0C) ∧ decodeWord .rev02 0x8160030C = .instr (.ldspr 11 0x0C) ∧
    decodeWord .rev02 0x80000400 = .instr .sync ∧ decodeWord .rev02 0x80050500 = .instr (.lock 0 5) ∧
    decodeWord .rev02 0x81650600 = .instr (.test 11 5) ∧ decodeWord .rev02 0x800007FF = .instr (.pmir 0xFF) ∧
    decodeWord .rev02 0x80000803 = .instr (.pmd 0x03) ∧
    decodeWord .rev02 0x80000900 = .illegal (.unlistedFunct 0x09) := by decide

/-- One word of each family under `SUMMARY`, and the words the two maps read differently (V159, V170, V174, V175). -/
theorem test_decode_summary :
    decodeWord .summary 0x05653000 = .instr (.add 11 5 6) ∧ decodeWord .summary 0x0D65FFF0 = .instr (.addi 11 5 0xFFF) ∧
    decodeWord .summary 0x49653FFF = .instr (.lw 11 5 0x3FFF) ∧ decodeWord .summary 0x68E537FF = .instr (.sw 6 5 0x3FFF) ∧
    decodeWord .summary 0x096DFFFF = .instr (.lungi 11 0xFFFF) ∧ decodeWord .summary 0x17E537FC = .instr (.beq 5 6 0x3FFF) ∧
    decodeWord .summary 0x1BE0FFFF = .instr (.j 0x1FFFFF) ∧ decodeWord .summary 0x1FE5FFFF = .instr (.jrl 5 0x1FFFFF) ∧
    decodeWord .summary 0x2005020C = .instr (.stspr 5 0x0C) ∧
    decodeWord .summary 0x80000900 = .coProcessor 0x20 0x80000900 ∧
    decodeWord .rev02 0x84000000 = .illegal (.unassignedOpcode 0x21) ∧
    decodeWord .rev02 0x04000000 = .illegal (.unassignedOpcode 0x01) ∧
    decodeWord .summary 0x04000000 = .instr (.add 0 0 0) ∧ decodeWord .summary 0x00000000 = .illegal (.unassignedOpcode 0) ∧
    decodeWord .rev02 0xFFFFFFFF = .coProcessor 0x3F 0xFFFFFFFF := by decide

theorem test_decode_bytes :
    decodeBytes .rev02 [0x4D, 0x65, 0x30, 0x01] = .instr (.sub 11 5 6) ∧ decodeBytes .rev02 [0x4D, 0x65, 0x30] = .illegal .truncated ∧
    decodeTableWord 32 0x4D653001 = some (.sub 11 5 6) := by decide

/-- The macros expand to the words of T4 to T6. -/
theorem test_macros :
    (expandCall 0x00021234).map (encode .rev02) = [0x42C30002, 0x10161234] ∧ expandRet.map (encode .rev02) = [0x30040000] ∧
    (expandLa 11 0x00021234).map (encode .rev02) = [0x41601234, 0x41630002] := by decide

/-! ## One step of each instruction -/

/-- The state of the vectors: the reset state at pc 0x1000 with $R5 and $R6. -/
def start (a b : Word) : State := { writeReg 6 b (writeReg 5 a State.reset) with pc := 0x1000 }

/-- The outcome of one step on a word. -/
def run (s : State) (w : Nat) : Result := step (s.withFetchWord 32 w)

/-- What a next state shows; none after a stop. -/
def see {α : Type} (f : State → α) : Result → Option α
  | .next t => some (f t)
  | _ => none

/-- What an exception shows: its name, ECODE, the pc, PEMA. -/
def exception : Result → Option (ExcCode × Byte × Word × Flag)
  | .fault (.exception x t) => some (x, t.ecode, t.pc, t.statPema)
  | _ => none

/-- $R11 and Z. -/
def r11z (t : State) : Word × Flag := (readReg 11 t, t.statZ)

/-- $R11, Z, OV and ROI's pending bit. -/
def r11zor (t : State) : Word × Flag × Flag × Bool := (readReg 11 t, t.statZ, t.statOV, t.roiPending)

/-- V2. -/
theorem test_add_carry : see r11zor (run (start 0xFFFFFFFF 1) 0x4D653000) = some (0, .known true, .known true, true) := by decide
/-- V3. -/
theorem test_add_no_signed_overflow :
    see r11zor (run (start 0x7FFFFFFF 1) 0x4D653000) = some (0x80000000, .known false, .known false, false) := by decide
/-- V8. -/
theorem test_sub_borrow : see r11zor (run (start 0 1) 0x4D653001) = some (0xFFFFFFFF, .known false, .known true, true) := by decide
/-- V9. -/
theorem test_sub_no_borrow :
    see r11zor (run (start 0x80000000 1) 0x4D653001) = some (0x7FFFFFFF, .known false, .known false, false) := by decide
/-- V11. -/
theorem test_addu_keeps_ov :
    see r11zor (run { start 0xFFFFFFFF 2 with statOV := .known false } 0x4D653002) = some (1, .known false, .known false, false) := by
  decide
/-- V12. -/
theorem test_subu_keeps_ov :
    see r11zor (run { start 5 7 with statOV := .known true } 0x4D653003) = some (0xFFFFFFFE, .known false, .known true, false) := by
  decide
/-- V14. -/
theorem test_not : see r11zor (run (start 0xFFFFFFFF 0) 0x4D650004) = some (0, .known true, .any, false) := by decide
/-- V15. -/
theorem test_and : see r11z (run (start 0x0F0F00FF 0x00FF0F0F) 0x4D653005) = some (0x000F000F, .known false) := by decide
/-- V16. -/
theorem test_or : see r11z (run (start 0x0F0F00FF 0x00FF0F0F) 0x4D653006) = some (0x0FFF0FFF, .known false) := by decide
/-- V17. -/
theorem test_xor : see r11z (run (start 0x0F0F00FF 0x00FF0F0F) 0x4D653007) = some (0x0FF00FF0, .known false) := by decide
/-- V20. -/
theorem test_sal : see r11z (run (start 0xFFFFFFFF 31) 0x4D653008) = some (0x80000000, .known false) := by decide
/-- V21. -/
theorem test_sal_by_width : see r11z (run (start 0xFFFFFFFF 32) 0x4D653008) = some (0, .known true) := by decide
/-- V23. -/
theorem test_sar : see r11z (run (start 0x80000000 4) 0x4D653009) = some (0xF8000000, .known false) := by decide
/-- V26. -/
theorem test_sar_by_256 : see r11z (run (start 0x80000000 0x100) 0x4D653009) = some (0xFFFFFFFF, .known false) := by decide
/-- V27. -/
theorem test_sll : see r11z (run (start 0x80000001 1) 0x4D65300A) = some (2, .known false) := by decide
/-- V28. -/
theorem test_slr : see r11z (run (start 0x80000000 4) 0x4D65300B) = some (0x08000000, .known false) := by decide
/-- V30. -/
theorem test_slr_by_all : see r11z (run (start 0x80000000 0xFFFFFFFF) 0x4D65300B) = some (0, .known true) := by decide
/-- V32. -/
theorem test_comp_less : see r11z (run (start 0xFFFFFFFF 1) 0x4D65300C) = some (0xFFFFFFFF, .known false) := by decide
/-- T3. -/
theorem test_comp_greater : see r11z (run (start 4 3) 0x4D65300C) = some (1, .known false) := by decide
/-- V41. -/
theorem test_addi : see r11zor (run (start 7 0) 0x5965FFF0) = some (6, .known false, .known true, true) := by decide
/-- V45. -/
theorem test_subi : see r11zor (run (start 5 0) 0x5965FFF1) = some (6, .known false, .known true, true) := by decide
/-- V47. -/
theorem test_addui :
    see r11zor (run { start 0xFFFFFFFF 0 with statOV := .known false } 0x59650022) = some (1, .known false, .known false, false) := by
  decide
/-- V49. -/
theorem test_subui :
    see r11zor (run { start 1 0 with statOV := .known true } 0x59650013) = some (0, .known true, .known true, false) := by decide
/-- V50. -/
theorem test_noti : see r11z (run (start 0 0) 0x5960FFF4) = some (0xFFFFF000, .known false) := by decide
/-- V52. -/
theorem test_andi : see r11z (run (start 0xFFFFFFFF 0) 0x5965F0F5) = some (0x00000F0F, .known false) := by decide
/-- V53. -/
theorem test_ori : see r11z (run (start 0xFFFF0000 0) 0x5965FFF6) = some (0xFFFF0FFF, .known false) := by decide
/-- V54. -/
theorem test_xori : see r11z (run (start 0x00000FFF 0) 0x5965FFF7) = some (0, .known true) := by decide
/-- V55. -/
theorem test_sali : see r11z (run (start 1 0) 0x59650048) = some (0x10, .known false) := by decide
/-- V58. -/
theorem test_sari : see r11z (run (start 0x80000000 0) 0x5965FFF9) = some (0xFFFFFFFF, .known false) := by decide
/-- V59. -/
theorem test_slli : see r11z (run (start 0x80000001 0) 0x5965001A) = some (2, .known false) := by decide
/-- V60. -/
theorem test_slri : see r11z (run (start 0x80000000 0) 0x5965004B) = some (0x08000000, .known false) := by decide
/-- V61. -/
theorem test_compi_greater : see r11z (run (start 5 0) 0x5965FFFC) = some (1, .known false) := by decide
/-- V63. -/
theorem test_compi_less : see r11z (run (start 0x80000000 0) 0x5965001C) = some (0xFFFFFFFF, .known false) := by decide

/-- V5: register 0 reads 0 after a write, and the flags are written. -/
theorem test_add_to_zero_register :
    see (fun t => (readReg 0 t, t.statZ, t.statOV)) (run (start 0xFFFFFFFF 1) 0x4C053000)
      = some (0, .known true, .known true) := by decide

/-- The state of V70 to V77, with $R6 of V80 to V87. -/
def loaded : State :=
  { start 0x1000 0x11223344 with dmem := [(0x1010, 0xAA), (0x1011, 0xBB), (0x1012, 0xCC), (0x1013, 0xDD)] }

/-- V70. -/
theorem test_lw : see r11z (run loaded 0x79650010) = some (0xAABBCCDD, .any) := by decide
/-- V72. -/
theorem test_lh : see r11z (run loaded 0x79654012) = some (0x0000CCDD, .any) := by decide
/-- V74. -/
theorem test_lth : see r11z (run loaded 0x79658011) = some (0x00BBCCDD, .any) := by decide
/-- V75. -/
theorem test_lb : see r11z (run loaded 0x7965C010) = some (0x000000AA, .any) := by decide
/-- V77: ECODE is 1 and the pc is the load's. -/
theorem test_lw_misaligned : exception (run loaded 0x79650002) = some (.misaddr, 1, 0x1000, .any) := by decide
/-- V84. -/
theorem test_sw_split_offset :
    see (fun t => t.dmem.drop 4) (run loaded 0x74653004)
      = some [(0x2804, 0x11), (0x2805, 0x22), (0x2806, 0x33), (0x2807, 0x44)] := by decide
/-- V81. -/
theorem test_sh :
    see (fun t => t.dmem) (run loaded 0x75053010) = some [(0x1010, 0x33), (0x1011, 0x44), (0x1012, 0xCC), (0x1013, 0xDD)] := by
  decide
/-- V87. -/
theorem test_sth :
    see (fun t => t.dmem.take 3) (run loaded 0x76053001) = some [(0x1001, 0x22), (0x1002, 0x33), (0x1003, 0x44)] := by decide
/-- V83. -/
theorem test_sb :
    see (fun t => t.dmem) (run loaded 0x77053010) = some [(0x1010, 0x44), (0x1011, 0xBB), (0x1012, 0xCC), (0x1013, 0xDD)] := by
  decide

/-- Register 11 in the three files. -/
def three (t : State) : Word × Word × Word := (readBank .user 11 t, readBank .sys 11 t, readGlobal 11 t)

/-- V90. -/
theorem test_li : see three (run (start 0 0) 0x41608001) = some (0xFFFF8001, 0, 0) := by decide
/-- V91. -/
theorem test_lui : see three (run (start 0 0) 0x41638001) = some (0x80010000, 0, 0) := by decide
/-- V92. -/
theorem test_lni : see three (run (start 0 0) 0x41688001) = some (0x00008001, 0, 0) := by decide
/-- V93. -/
theorem test_luni : see three (run (start 0 0) 0x416B8001) = some (0x80010000, 0, 0) := by decide
/-- V94. -/
theorem test_lgi : see three (run (start 0 0) 0x41628001) = some (0, 0, 0xFFFF8001) := by decide
/-- V95. -/
theorem test_lugi : see three (run (start 0 0) 0x41658001) = some (0, 0, 0x80010000) := by decide
/-- V96. -/
theorem test_lngi : see three (run (start 0 0) 0x416A8001) = some (0, 0, 0x00008001) := by decide
/-- V97. -/
theorem test_lungi : see three (run (start 0 0) 0x416D8001) = some (0, 0, 0x80010000) := by decide
/-- V98. -/
theorem test_lsi : see three (run (start 0 0) 0x41618001) = some (0, 0xFFFF8001, 0) := by decide
/-- V99. -/
theorem test_lusi : see three (run (start 0 0) 0x41648001) = some (0, 0x80010000, 0) := by decide
/-- V100. -/
theorem test_lnsi : see three (run (start 0 0) 0x41698001) = some (0, 0x00008001, 0) := by decide
/-- V101. -/
theorem test_lunsi : see three (run (start 0 0) 0x416C8001) = some (0, 0x80010000, 0) := by decide
/-- V103. -/
theorem test_lgi_register_zero : see (readGlobal 0) (run (start 0 0) 0x40021234) = some 0x1234 := by decide
/-- V104. -/
theorem test_lsi_shared :
    see (fun t => (readBank .user 16 t, readBank .sys 16 t)) (run (start 0 0) 0x42010021) = some (0x21, 0x21) := by decide

/-- The pc and $R4. -/
def pcRa (t : State) : Word × Word := (t.pc, readReg 4 t)

/-- V112. -/
theorem test_beq_taken : see pcRa (run (start 3 3) 0x37E537E0) = some (0x0FF8, 0) := by decide
/-- V111. -/
theorem test_beq_not_taken : see pcRa (run (start 3 4) 0x34053040) = some (0x1004, 0) := by decide
/-- V115. -/
theorem test_bne : see pcRa (run (start 3 4) 0x34053041) = some (0x1010, 0) := by decide
/-- V116. -/
theorem test_bgt_signed : see pcRa (run (start 1 0xFFFFFFFF) 0x34053042) = some (0x1010, 0) := by decide
/-- V117. -/
theorem test_bgt_equal : see pcRa (run (start 3 3) 0x34053042) = some (0x1004, 0) := by decide
/-- V118. -/
theorem test_blt_signed : see pcRa (run (start 0x80000000 0) 0x34053043) = some (0x1010, 0) := by decide
/-- V119. -/
theorem test_blt_greater : see pcRa (run (start 4 3) 0x34053043) = some (0x1004, 0) := by decide
/-- V121. -/
theorem test_j : see pcRa (run (start 0 0) 0x33E0FFF8) = some (0x0FF8, 0) := by decide
/-- V124. -/
theorem test_jal : see pcRa (run (start 0 0) 0x13E0FF00) = some (0x0F00, 0x1004) := by decide
/-- V126. -/
theorem test_jr : see pcRa (run (start 0x2000 0) 0x30050100) = some (0x2100, 0) := by decide
/-- V128: the base is read before the link is written. -/
theorem test_jrl : see pcRa (run (writeReg 4 0x3000 (start 0 0)) 0x10040008) = some (0x3008, 0x1004) := by decide

/-! ## System -/

/-- The table of V130, with `SYSCTP` = 0x4000, at level `p`. -/
def calling (p : BitVec 3) (least : Level) : State :=
  { start 0 0 with
    cfg := { defaultConfig with sysCallTable := some [⟨0x4000, 5, some ⟨0x400, least, .highSupervisor⟩⟩, ⟨0x4000, 6, none⟩] },
    sysctp := 0x4000, statPml := p }

/-- V130. -/
theorem test_syscall :
    see (fun t => (t.pc, t.statPml, t.statPema, t.bank, t.sysRetPc, t.sysRetPml)) (run (calling 0 .lowUser) 0x80000005)
      = some (0x400, 3, .known true, .sys, 0x1004, 0) := by decide
/-- V133. -/
theorem test_syscall_refused_level :
    exception (run (calling 0 .lowSupervisor) 0x80000005) = some (.insfpem, 0, 0x1000, .known false) := by decide
/-- V135. -/
theorem test_sysret :
    see (fun t => (t.pc, t.statPml, t.bank)) (run { start 0 0 with bank := .sys, sysRetPc := 0x1004, sysRetPml := 0 } 0x80000100)
      = some (0x1004, 0, .user) := by decide
/-- V137. -/
theorem test_stspr_stat :
    see (fun t => (t.statZ, t.statPml, t.statGine, t.statSpcp)) (run (start 0xFF 0) 0x80050202) = some (.any, 7, true, true) := by
  decide
/-- V139. -/
theorem test_stspr_uinten :
    see (fun t => t.uinten) (run { start 0xFFFFFFFF 0 with statPml := 2 } 0x8005020C) = some 0xFFFF7FFF := by decide
/-- V145. -/
theorem test_ldspr_stat :
    see (readReg 11) (run { start 0 0 with statZ := .known false, statOV := .known true, statPema := .known false } 0x81600302)
      = some 0x5C := by decide
/-- V148. -/
theorem test_ldspr_rpid : see (readReg 11) (run { start 0 0 with rpid := 0x1234 } 0x81600314) = some 0x1234 := by decide
/-- 10_state.md R57: 0x03 is refused though the base would bring SMSTAT to it; R58: 0x07 is then RPCPR0's. -/
theorem test_spr_reserved :
    sprAt { defaultConfig with supvSprBase := some 0x03 } 0x03 = none ∧
    sprAt { defaultConfig with supvSprBase := some 0x03 } 0x07 = some (.supv .rpcpr0) := by decide
/-- V149. -/
theorem test_sync : see pcRa (run (start 0 0) 0x80000400) = some (0x1004, 0) := by decide

/-- A resource that grants a lock at 0x100 and answers its test with 0x2A. -/
def granting : State :=
  { start 0x100 0 with cfg := { defaultConfig with resource := some ⟨[⟨0, 0x100, 0, 7⟩], [⟨0, 0x100, 0x2A⟩] ⟩ } }

/-- V151: rd = 0, nothing written; the resource state moves. -/
theorem test_lock : see (fun t => (readReg 0 t, t.resource, t.pc)) (run granting 0x80050500) = some (0, 7, 0x1004) := by decide
/-- V150. -/
theorem test_test : see (fun t => (readReg 11 t, t.resource)) (run granting 0x81650600) = some (0x2A, 0) := by decide
/-- V152, the policy granting. -/
theorem test_pmir :
    see (fun t => t.statPml)
      (run { start 0 0 with statPml := 1, cfg := { defaultConfig with pmirPolicy := some [(1, 3)] } } 0x80000703) = some 3 := by
  decide
/-- V154. -/
theorem test_pmir_reserved : exception (run (start 0 0) 0x80000706) = some (.invpr, 10, 0x1000, .any) := by decide
/-- V156. -/
theorem test_pmd : see (fun t => t.statPml) (run (start 0 0) 0x80000800) = some 0 := by decide
/-- V157. -/
theorem test_pmd_not_a_decrease :
    exception (run { start 0 0 with statPml := 1 } 0x80000803) = some (.invpr, 10, 0x1000, .any) := by decide

/-! ## The step: interrupts, fetch, co-processor words -/

/-- What an interrupt shows: which one, the pc, ROI's pending bit. -/
def interrupt : Result → Option (IntVec × Word × Bool)
  | .fault (.interrupt v t) => some (v, t.pc, t.roiPending)
  | _ => none

/-- ROI pending and enabled, at a misaligned pc. -/
def roiWaiting : State := { start 0 0 with pc := 0x1002, roiPending := true, statGine := true, uinten := 0x4000 }

/-- V176. -/
theorem test_misaligned_pc : exception (step { start 0 0 with pc := 0x1002 }) = some (.misaddr, 1, 0x1002, .any) := by decide
/-- V177, V179: ROI is recognised before MISADDR. -/
theorem test_roi_first : interrupt (step roiWaiting) = some (.roi, 0x1002, false) := by decide
/-- V178: while GINE is 0 the step runs and the bit stays. -/
theorem test_roi_stays_pending :
    see (fun t => (t.pc, t.roiPending)) (run { roiWaiting with pc := 0x1000, statGine := false } 0x80000400)
      = some (0x1004, true) := by decide
/-- V172. -/
theorem test_cpmi :
    interrupt (run { start 0 0 with statSpcp := true, statGine := true, uinten := 0x2000 } 0xC0000000)
      = some (.cpmi, 0x1000, false) := by decide
/-- V171. -/
theorem test_coprocessor_illegal :
    (match run (start 0 0) 0xFFFFFFFF with
      | .fault (.illegalInstruction none) => true
      | _ => false) = true := by decide

/-! ## States that meet the hypotheses of the statements, each clause at a boundary -/

theorem witness_DecodeUndoesEncode :
    (Instr.jr 1 0).encodable = true ∧ (Instr.jrl 31 0x1FFFFF).encodable = true ∧ (Instr.add 0 0 0).encodable = true := by decide

theorem witness_UnlistedSelectorsAreIllegal :
    (opcodeOf 0x4C00000D = opcodeFor .rev02 .integer ∧ (aluopOf 0x4C00000D).toNat = 0xd) ∧
    (opcodeOf 0x5800000F = opcodeFor .rev02 .immediate ∧ (aluopOf 0x5800000F).toNat = 0xf) ∧
    (opcodeOf 0x40060000 = opcodeFor .rev02 .loadImmediate ∧ (dselOf 0x40060000).toNat = 0x6) ∧
    (opcodeOf 0x40100000 = opcodeFor .rev02 .loadImmediate ∧ (dselOf 0x40100000).toNat = 0x10) ∧
    (opcodeOf 0x80000900 = opcodeFor .rev02 .system ∧ (sysFunctOf 0x80000900).toNat = 0x09) := by decide

theorem witness_OpcodeSpaceIsPartitioned :
    (opcodeOf 0xC0000000).toNat = 0x30 ∧ (opcodeOf 0xFC000000).toNat = 0x3F ∧ (opcodeOf 0xBC000000).toNat = 0x2F ∧
    opcodeOf 0x4C000000 = 0x13 ∧ opcodeOf 0x58000000 = 0x16 ∧ opcodeOf 0x40000000 = 0x10 ∧ opcodeOf 0x34000000 = 0x0D ∧
    opcodeOf 0x30000000 = 0x0C ∧ opcodeOf 0x10000000 = 0x04 ∧ opcodeOf 0x80000000 = 0x20 ∧ opcodeOf 0x78000000 = 0x1E ∧
    opcodeOf 0x74000000 = 0x1D ∧ opcodeOf 0x04000000 = 0x01 ∧ opcodeOf 0x0C000000 = 0x03 ∧ opcodeOf 0x08000000 = 0x02 ∧
    opcodeOf 0x14000000 = 0x05 ∧ opcodeOf 0x18000000 = 0x06 ∧ opcodeOf 0x1C000000 = 0x07 ∧ opcodeOf 0x20000000 = 0x08 ∧
    opcodeOf 0x48000000 = 0x12 ∧ opcodeOf 0x68000000 = 0x1A ∧
    (opcodeOf 0x80000000).toNat = 0x20 ∧ (opcodeOf 0x00000000).toNat = 0x00 ∧ (opcodeOf 0x7C000000).toNat = 0x1F := by decide

/-- add with shft all ones, not with rsb and shft all ones, noti with rsa all ones, sync with every operand bit 1. -/
theorem witness_UnusedBitsAreIgnored :
    SameUsedBits .rev02 0x4D653000 0x4D6537F0 ∧ SameUsedBits .rev02 0x4D650004 0x4D65FFF4 ∧
    SameUsedBits .rev02 0x59600004 0x597F0004 ∧ SameUsedBits .rev02 0x80000400 0x83FF04FF ∧
    decodeWord .rev02 0x4D6537F0 = .instr (.add 11 5 6) := by
  refine ⟨⟨?_, ?_, ?_, ?_, ?_⟩, ⟨?_, ?_, ?_, ?_, ?_⟩, ⟨?_, ?_, ?_, ?_, ?_⟩, ⟨?_, ?_, ?_, ?_, ?_⟩, ?_⟩ <;> decide

/-- A machine with the word of `sync` loaded at its pc. -/
def syncLoaded : State := (start 0 0).withFetchWord 32 0x80000400

theorem witness_StepRunsDecodedInstruction :
    recognised syncLoaded = none ∧ syncLoaded.pc.toNat % 4 = 0 ∧
    fetchBytes syncLoaded syncLoaded.pc = .bytes 0x80 0x00 0x04 0x00 ∧
    decodeBytes syncLoaded.cfg.opMap [0x80, 0x00, 0x04, 0x00] = .instr .sync := by decide

/-- A machine with no instruction memory, and one whose two spaces are one and whose word at the pc was stored to. -/
def noCode : State := { start 0 0 with cfg := { defaultConfig with iMemMap := [] } }
def selfModified : State := { start 0 0 with cfg := { defaultConfig with unifiedMemory := true }, dmem := [(0x1003, 0)] }

/-- The other outcomes: a co-processor word, an illegal one, no memory at the pc, a stored-to byte, nothing loaded. -/
theorem witness_StepRunsDecodedInstruction_other :
    decodeBytes .rev02 [0xC0, 0, 0, 0] = .coProcessor 0x30 0xC0000000 ∧
    decodeBytes .rev02 [0, 0, 0, 0] = .illegal (.unassignedOpcode 0) ∧
    (recognised noCode = none ∧ allMapped noCode.cfg.iMemMap noCode.pc 4 = false) ∧
    (recognised selfModified = none ∧ allMapped selfModified.cfg.iMemMap selfModified.pc 4 = true ∧
      selfModified.cfg.unifiedMemory = true ∧ memRead selfModified.dmem (selfModified.pc + BitVec.ofNat 32 3).toNat ≠ none) ∧
    fetchBytes (start 0 0) 0x1000 = .notLoaded 0x1000 := by decide

/-- The last word of the space: the pc is 0xFFFFFFFC. -/
def lastWord : State := { start 0 0 with pc := 0xFFFFFFFC }

theorem witness_LoadedWordRuns :
    Instr.sync.encodable = true ∧ recognised lastWord = none ∧ lastWord.pc.toNat % 4 = 0 ∧
    lastWord.cfg.unifiedMemory = false ∧ allMapped lastWord.cfg.iMemMap lastWord.pc 4 = true := by decide

/-- ROI pending and enabled on a machine with `IntEntry`. -/
def entering : State := { roiWaiting with cfg := { defaultConfig with intEntryGiven := true } }

/-- An extra vector above ROI's, one below, and ROI, all pending and enabled: the lowest address is recognised. -/
def crowded : State :=
  { roiWaiting with
    cfg := { defaultConfig with extraVectors := [⟨0x40, 0⟩, ⟨0x0C, 1⟩] }, uinten := 0x4003, extraPending := [0x40, 0x0C] }

/-- 60_exceptions.md R318: the lowest vector address first; R312: its pending bit alone is cleared. -/
theorem test_lowest_vector_first :
    recognised crowded = some (.extra ⟨0x0C, 1⟩) ∧
    (clearPending (.extra ⟨0x0C, 1⟩) crowded).extraPending = [0x40] ∧
    (clearPending (.extra ⟨0x0C, 1⟩) crowded).roiPending = true := by decide

/-- The three of them wait for recognition. -/
theorem witness_PendingRoiIsTakenFirst_extra :
    Waiting crowded .roi ∧ Waiting crowded (.extra ⟨0x40, 0⟩) ∧ Waiting crowded (.extra ⟨0x0C, 1⟩) ∧
    crowded.cfg.intEntryGiven = false ∧ ∀ v, ¬ Waiting (start 0 0) v :=
  ⟨⟨rfl, rfl, rfl, nofun⟩, ⟨by simp [Pending, crowded], rfl, rfl, fun e h => by cases h; simp [crowded]⟩,
    ⟨by simp [Pending, crowded], rfl, rfl, fun e h => by cases h; simp [crowded]⟩, rfl, fun _ h => absurd h.2.1 (by decide)⟩

theorem witness_PendingRoiIsTakenFirst :
    (entering.cfg.extraVectors = [] ∧ entering.cfg.intEntryGiven = true ∧ entering.roiPending = true ∧ entering.statGine = true ∧
      entering.uinten.getLsbD entering.cfg.uintenRoiBit.toNat = true) ∧
    (roiWaiting.cfg.extraVectors = [] ∧ roiWaiting.cfg.intEntryGiven = false ∧ roiWaiting.roiPending = true ∧
      roiWaiting.statGine = true ∧ roiWaiting.uinten.getLsbD roiWaiting.cfg.uintenRoiBit.toNat = true) ∧
    (start 0 0).cfg.extraVectors = [] ∧ (start 0 0).statGine = false := by decide

theorem witness_MisalignedPcRaisesMisaddr :
    recognised { start 0 0 with pc := 1 } = none ∧ ({ start 0 0 with pc := 1 } : State).pc.toNat % 4 ≠ 0 ∧
    (start 0 0).cfg.excEntryGiven = false := by decide

theorem witness_BanksShareOnlySharedRegisters :
    (15 : RegIx) ∉ (start 0 0).cfg.bankShared ∧ (24 : RegIx) ∉ (start 0 0).cfg.bankShared ∧ Bank.sys ≠ Bank.user ∧
    (15 : RegIx) ≠ 0 := by decide

/-- The amounts 31 and 32 are in range where `ShiftOver` is the default, and 1 and 127 are shft fields the shifts refuse. -/
theorem witness_ShiftInstructions :
    (readReg 6 (start 0 31)).toNat < 32 ∧ (readReg 6 (start 0 32)).toNat = 32 ∧
    (start 0 32).cfg.shiftOver = .mathematical ∧ (1 : BitVec 7) ≠ 0 ∧ (127 : BitVec 7) ≠ 0 := by decide

theorem witness_ShiftImmediateInstructions :
    (31 : BitVec 12).toNat < 32 ∧ (4095 : BitVec 12).toNat = 4095 ∧ (start 0 0).cfg.shiftOver = .mathematical := by decide

/-- The reset state of a machine that compares unsigned. -/
def unsignedOrder : State := State.resetWith { defaultConfig with cmpSigned := false }

/-- For `CompareRegisters`, `CompareImmediate` and `BranchOnOrder`. -/
theorem witness_comparison_orders : State.reset.cfg.cmpSigned = true ∧ unsignedOrder.cfg.cmpSigned = false := by decide

/-- Reads and writes of one byte and of four. -/
theorem witness_MemoryAccessIsBigEndian :
    (1 ≤ 1 ∧ 1 ≤ 4 ∧ 0 < 1) ∧ (1 ≤ 4 ∧ 4 ≤ 4 ∧ 3 < 4) ∧ ∀ k < 4, (0x1004 : Word) ≠ 0x1000 + BitVec.ofNat 32 k := by decide

/-- lw and lh at 0x1010, lth at 0x1011, lb at 0x1013, their bytes written. -/
theorem witness_LoadsReadBigEndian :
    readReg 5 loaded + 0x10 = 0x1010 ∧ (0x1010 : Word).toNat % 4 = 0 ∧ allMapped loaded.cfg.dataMap 0x1010 4 = true ∧
    dataByte? loaded 0x1010 = some 0xAA ∧ dataByte? loaded (0x1010 + 1) = some 0xBB ∧
    dataByte? loaded (0x1010 + 2) = some 0xCC ∧ dataByte? loaded (0x1010 + 3) = some 0xDD ∧
    (0x1010 : Word).toNat % 2 = 0 ∧ allMapped loaded.cfg.dataMap 0x1010 2 = true ∧
    allMapped loaded.cfg.dataMap 0x1011 3 = true ∧ allMapped loaded.cfg.dataMap 0x1013 1 = true := by decide

/-- A device whose window is 0x2000 to 0x2003, among plain memory: a read of its word answers 0x12345678 and moves its state to 1;
a write of 0x55 to its last byte moves it to 2. -/
def withDevice : State :=
  State.resetWith { defaultConfig with dMemMap := [{ base := 0, size := 4294967296, device := none },
    { base := 0x2000, size := 4, device := some ⟨[⟨0, 0x2000, 4, 0x12345678, 1⟩, ⟨0, 0x1FFE, 3, 0xAABBCC, 3⟩],
      [⟨0, 0x2003, 1, 0x55, 2⟩, ⟨0, 0x1FFE, 3, 0x55, 4⟩]⟩ }] }

/-- The device in its own state, with $R5 and $R6, and a byte stored below its window. -/
def atDevice : State := { writeReg 6 0x55 (writeReg 5 0x2000 withDevice) with dmem := [(0x1FFE, 0x11), (0x1FFF, 0x22)] }

/-- 20_memory.md R84: the device's answer, and the state it moves to. -/
theorem test_device_word : see (fun t => (readReg 11 t, t.device)) (exec (.lw 11 5 0) atDevice) = some (0x12345678, 1) := by
  decide
/-- R84: a read that begins below the window takes the device's byte from the device alone. -/
theorem test_device_mixed : see (fun t => (readReg 11 t, t.device)) (exec (.lth 11 5 0x3FFE) atDevice) = some (0x1122CC, 3) := by
  decide
/-- R84: a byte stored into the window moves the device, and a load there answers from the device all the same. -/
theorem test_device_store : see (fun t => t.device) (exec (.sb 6 5 3) atDevice) = some 2 := by decide
/-- R84: of a write that begins below the window memory receives the bytes below it. -/
theorem test_device_mixed_store :
    see (fun t => (t.dmem.take 2, t.device)) (exec (.sth 6 5 0x3FFE) atDevice) = some ([(0x1FFE, 0), (0x1FFF, 0)], 4) := by
  decide
/-- 20_memory.md R90: in a unified memory a byte stored into the window bars the fetch of its word. -/
theorem test_device_store_bars_fetch :
    (match exec (.sb 6 5 3) { atDevice with cfg := { atDevice.cfg with unifiedMemory := true } } with
      | .next t => fetchBytes t 0x2000 == .fromStored 0x2000
      | _ => false) = true := by decide

/-- For `LoadsReadBigEndian`, `StoresWriteBigEndian` and `StoreThenLoad`: accesses that touch a device, at both edges of its
window, and accesses that do not. -/
theorem witness_device_accesses :
    (touchesDevice atDevice.cfg.dMemMap 0x2000 4 = true ∧ allMapped atDevice.cfg.dataMap 0x2000 4 = true) ∧
    touchesDevice atDevice.cfg.dMemMap 0x2002 2 = true ∧ touchesDevice atDevice.cfg.dMemMap 0x1FFE 3 = true ∧
    touchesDevice atDevice.cfg.dMemMap 0x2003 1 = true ∧ touchesDevice atDevice.cfg.dMemMap 0x2004 4 = false ∧
    touchesDevice atDevice.cfg.dMemMap 0x1FFE 2 = false ∧ touchesDevice atDevice.cfg.dMemMap 0x1FFD 3 = false ∧
    touchesDevice atDevice.cfg.dMemMap 0x1FFF 1 = false := by decide

/-- sw at the last word of the space, sh at its last half, sth wrapping past its end, sb at its last byte. -/
theorem witness_StoresWriteBigEndian :
    ((0xFFFFFFFC : Word).toNat % 4 = 0 ∧ allMapped loaded.cfg.dataMap 0xFFFFFFFC 4 = true) ∧
    ((0xFFFFFFFE : Word).toNat % 2 = 0 ∧ allMapped loaded.cfg.dataMap 0xFFFFFFFE 2 = true) ∧
    allMapped loaded.cfg.dataMap 0xFFFFFFFE 3 = true ∧ allMapped loaded.cfg.dataMap 0xFFFFFFFF 1 = true := by decide

/-- A machine with no data memory. -/
def noData : State := { start 0x1000 0 with cfg := { defaultConfig with dMemMap := [] } }

/-- The same under the policy that aligns nothing. -/
def noDataBytewise : State := { start 0x1000 0 with cfg := { defaultConfig with dMemMap := [], alignPolicy := .byte } }

theorem witness_BadAddressesStopLoadsAndStores :
    (loaded.cfg.alignPolicy = .strict ∧ loaded.cfg.excEntryGiven = false ∧ (effAddr 5 2 loaded).toNat % 4 ≠ 0 ∧
      (effAddr 5 1 loaded).toNat % 2 ≠ 0) ∧
    ((effAddr 5 0 noData).toNat % 4 = 0 ∧ allMapped noData.cfg.dataMap (effAddr 5 0 noData) 4 = false ∧
      allMapped noData.cfg.dataMap (effAddr 5 0 noData) 2 = false ∧
      allMapped noData.cfg.dataMap (effAddr 5 0 noData) 3 = false ∧
      allMapped noData.cfg.dataMap (effAddr 5 0 noData) 1 = false) ∧
    (noDataBytewise.cfg.alignPolicy ≠ .strict ∧ (effAddr 5 1 noDataBytewise).toNat % 2 ≠ 0 ∧
      allMapped noDataBytewise.cfg.dataMap (effAddr 5 1 noDataBytewise) 4 = false) := by decide

theorem witness_StoreThenLoad :
    loaded.cfg.excEntryGiven = false ∧ (11 : RegIx) ≠ 0 ∧
    (see (fun t => t.pc) (exec (.sw 6 5 0) loaded) = some 0x1004 ∧ see (fun t => t.pc) (exec (.sh 6 5 2) loaded) = some 0x1004 ∧
      see (fun t => t.pc) (exec (.sth 6 5 1) loaded) = some 0x1004 ∧
      see (fun t => t.pc) (exec (.sb 6 5 3) loaded) = some 0x1004) := by decide

/-- The reset state of a machine whose load immediates write a half. -/
def halves : State := State.resetWith { defaultConfig with liMode := .half }

/-- For `LoadImmediateWhole`, `LoadImmediateGlobal`, `LoadImmediateHalf` and `LaLoadsOnlyTheUpperHalf`. -/
theorem witness_load_immediate_modes :
    State.reset.cfg.liMode = .whole ∧ halves.cfg.liMode = .half ∧ (11 : RegIx) ≠ 0 := by decide

theorem witness_JumpTargets :
    State.reset.cfg.jMode = .pcrelWhenRsaZero ∧
    (State.resetWith { defaultConfig with jMode := .alwaysRegister }).cfg.jMode = .alwaysRegister := by decide

theorem witness_CallReachesItsAddressAndRetReturns :
    State.reset.cfg.liMode = .whole ∧ State.reset.bank = .user ∧ (22 : RegIx) ∈ State.reset.cfg.bankShared := by decide

/-- The table of `calling`. -/
def rows : List SysCallRow := [⟨0x4000, 5, some ⟨0x400, .lowUser, .highSupervisor⟩⟩, ⟨0x4000, 6, none⟩]

theorem witness_AcceptedSyscallEntersTheRoutine :
    (calling 0 .lowUser).cfg.sysCallTable = some rows ∧ (calling 0 .lowUser).bank = .user ∧ (calling 0 .lowUser).sysctp ≠ 0 ∧
    sysCallLookup rows (calling 0 .lowUser).sysctp 5 = some ⟨0x400, .lowUser, .highSupervisor⟩ ∧
    Level.lowUser.code.toNat ≤ (level (calling 0 .lowUser)).toNat ∧
    Level.highSupervisor.code.toNat ≤ (calling 0 .lowUser).cfg.maxPml.code.toNat := by decide

/-- 60_exceptions.md R335: with MAXPML = 3 a routine at level 3 is entered there, and level 4 does not exist. -/
theorem test_level_above_maxpml :
    levelExists { defaultConfig with maxPml := .highSupervisor } 3 = true ∧
    levelExists { defaultConfig with maxPml := .highSupervisor } 4 = false ∧ levelExists defaultConfig 5 = true ∧
    levelExists defaultConfig 6 = false := by decide

theorem witness_InvalidSyscallRaises :
    ((calling 0 .lowUser).cfg.sysCallTable = some rows ∧ (calling 0 .lowUser).bank = .user ∧
      (calling 0 .lowUser).cfg.excEntryGiven = false) ∧
    ({ calling 0 .lowUser with sysctp := 0 } : State).sysctp = 0 ∧
    ((calling 0 .lowUser).sysctp ≠ 0 ∧ sysCallLookup rows (calling 0 .lowUser).sysctp 6 = none) ∧
    ((calling 1 .lowSupervisor).cfg.pmlImplemented = true ∧
      (calling 1 .lowSupervisor).statPml.toNat < Level.lowSupervisor.code.toNat ∧
      (match (calling 1 .lowSupervisor).cfg.sysCallTable with
        | some r => sysCallLookup r 0x4000 5
        | none => none) = some ⟨0x400, .lowSupervisor, .highSupervisor⟩) := by decide

theorem witness_SyscallAndSysretRefusals :
    (State.resetWith { defaultConfig with sysCallTable := none }).cfg.sysCallTable = none ∧
    (({ calling 0 .lowUser with bank := .sys } : State).cfg.sysCallTable ≠ none ∧
      ({ calling 0 .lowUser with bank := .sys } : State).bank = .sys) ∧
    State.reset.bank = .user := by decide

theorem witness_SysretReturns :
    ({ start 0 0 with bank := .sys } : State).bank = .sys ∧ (start 0 0).cfg.pmlImplemented = true ∧
    (State.resetWith { defaultConfig with pmlImplemented := false }).cfg.pmlImplemented = false := by decide

/-- The routine's own state at its sysret is the state the call entered with. -/
theorem witness_SysretUndoesSyscall :
    exec (.syscall 5) (calling 0 .lowUser) = .next (enterSysCall ⟨0x400, .lowUser, .highSupervisor⟩ (calling 0 .lowUser)) ∧
    (calling 0 .lowUser).cfg.excEntryGiven = false := ⟨rfl, rfl⟩

/-- Each register at exactly its lowest level. -/
theorem witness_StsprWritesTheRegister :
    ∀ x ∈ writableSprs, x.2.2 ≤ (level { start 0 0 with statPml := BitVec.ofNat 3 x.2.2 }).toNat ∧
      hardCoded (start 0 0).cfg x.2.1 = false := by decide

/-- Each register at the level just below, and OPCARP's reading level. -/
theorem witness_SprAccessNeedsTheLevel :
    (∀ x ∈ writableSprs, (level { start 0 0 with statPml := BitVec.ofNat 3 (x.2.2 - 1) }).toNat < x.2.2 ∧
      hardCoded (start 0 0).cfg x.2.1 = false) ∧
    (level { start 0 0 with statPml := 2 }).toNat < 3 ∧ (start 0 0).cfg.excEntryGiven = false := by decide

theorem witness_LdsprReadsTheRegister :
    ((0x04, 3, 0x77) : Byte × Nat × Word) ∈ readableSprs { start 0 0 with opcarp := 0x77, statPml := 3 } ∧
    3 ≤ (level { start 0 0 with opcarp := 0x77, statPml := 3 }).toNat ∧
    ((0x14, 0, 0x1234) : Byte × Nat × Word) ∈ readableSprs { start 0 0 with rpid := 0x1234, statPml := 0 } :=
  ⟨by simp [readableSprs], by decide, by simp [readableSprs]⟩

theorem witness_LdsprReadsStat :
    ({ start 0 0 with statZ := .known true, statOV := .known false, statPema := .known true } : State).statZ = .known true ∧
    pema { start 0 0 with statPema := .known true } = .known true := by decide

/-- The addresses next to the named ones, and a machine with hard-coded pointers. -/
theorem witness_SprRefusals :
    (start 0 0).cfg.supvSprBase = none ∧
    (0x03 : Byte).toNat ∉ [0x00, 0x01, 0x02, 0x04, 0x08, 0x0c, 0x10, 0x14] ∧
    (0x15 : Byte).toNat ∉ [0x00, 0x01, 0x02, 0x04, 0x08, 0x0c, 0x10, 0x14] ∧
    (State.resetWith { defaultConfig with opcarpHardcoded := true, cpidtpHardcoded := true }).cfg.opcarpHardcoded = true := by
  decide

/-- The lowest base that clashes with no system register and the highest one that keeps every register in the 8 bit space. -/
theorem witness_SupervisorRegistersReadBack :
    (State.resetWith { defaultConfig with supvSprBase := some 0x15 }).cfg.supvSprBase = some 0x15 ∧
    0x15 ≤ (0x15 : Byte).toNat ∧ SupvReg.smstat ∈ defaultConfig.supervisorRegs ∧
    (0x15 : Byte).toNat = (0x15 : Byte).toNat + supvOffset .smstat ∧
    SupvReg.sysctp ∈ defaultConfig.supervisorRegs ∧ (0xFF : Byte).toNat = (0xEA : Byte).toNat + supvOffset .sysctp ∧
    2 ≤ (level (State.resetWith { defaultConfig with supvSprBase := some 0x15 })).toNat ∧
    (level { State.resetWith { defaultConfig with supvSprBase := some 0x15 } with statPml := 1 }).toNat < 2 := by decide

theorem witness_LockAndTest :
    granting.cfg.resource = some ⟨[⟨0, 0x100, 0, 7⟩], [⟨0, 0x100, 0x2A⟩]⟩ ∧
    (State.resetWith { defaultConfig with resource := none }).cfg.resource = none := by decide

/-- Targets 7 and 0 from level 7; 3 above level 1; 6; 4 above MAXPML = 3. -/
theorem witness_PermissionDecrease :
    (start 0 0).cfg.pmlImplemented = true ∧
    ((7 : Byte).toNat ≤ (start 0 0).statPml.toNat ∧ (7 : Byte).toNat ≠ 6 ∧
      (7 : Byte).toNat ≤ (start 0 0).cfg.maxPml.code.toNat) ∧
    (({ start 0 0 with statPml := 1 } : State).statPml.toNat < (3 : Byte).toNat) ∧ (6 : Byte).toNat = 6 ∧
    ({ defaultConfig with maxPml := .highSupervisor } : Config).maxPml.code.toNat < (4 : Byte).toNat ∧
    (start 0 0).cfg.excEntryGiven = false := by decide

/-- From level 5: to 5, to 4, to 7 with a policy that grants it, with one that denies it, and with none. -/
theorem witness_PermissionIncreaseRequest :
    (5 : Byte).toNat = ({ start 0 0 with statPml := 5 } : State).statPml.toNat ∧
    (4 : Byte).toNat < ({ start 0 0 with statPml := 5 } : State).statPml.toNat ∧
    (({ start 0 0 with statPml := 5 } : State).statPml.toNat < (7 : Byte).toNat ∧ (7 : Byte).toNat ≠ 6 ∧
      (7 : Byte).toNat ≤ (start 0 0).cfg.maxPml.code.toNat) ∧
    ((5 : BitVec 3), BitVec.ofNat 3 7) ∈ ([(5, 7)] : List (BitVec 3 × BitVec 3)) ∧
    ((5 : BitVec 3), BitVec.ofNat 3 7) ∉ ([] : List (BitVec 3 × BitVec 3)) ∧ (start 0 0).cfg.pmirPolicy = none := by decide

/-- A machine with no permission levels. -/
def noLevels : State := State.resetWith { defaultConfig with pmlImplemented := false }

theorem witness_WithoutPermissionLevels :
    noLevels.cfg.pmlImplemented = false ∧ exec .sync noLevels = .next (advance noLevels) := ⟨rfl, rfl⟩

/-- A machine with two claimed opcodes, one of them with its function. -/
def claiming : State :=
  State.resetWith { defaultConfig with cpnum := 1, coProcClaimed := [0x30, 0x31], coProcExec := [0x30] }

theorem witness_CoProcessorWords :
    (claiming.cfg.cpnum ≠ 0 ∧ (0x32 : BitVec 6) ∉ claiming.cfg.coProcClaimed) ∧
    ((start 0 0).cfg.cpnum = 0 ∧ (start 0 0).statSpcp = false ∧ (start 0 0).statGine = false ∧
      (start 0 0).cfg.intEntryGiven = false ∧ (0x2000 : Word).getLsbD (start 0 0).cfg.uintenCpmiBit.toNat = true) ∧
    (claiming.cfg.cpnum ≠ 0 ∧ (0x30 : BitVec 6) ∈ claiming.cfg.coProcClaimed ∧ (0x30 : BitVec 6) ∈ claiming.cfg.coProcExec ∧
      (0x31 : BitVec 6) ∈ claiming.cfg.coProcClaimed ∧ (0x31 : BitVec 6) ∉ claiming.cfg.coProcExec) ∧
    entering.cfg.intEntryGiven = true := by decide

theorem witness_ExceptionsArePrecise :
    exec (.lw 11 5 2) loaded = .fault (.exception .misaddr (recordException .misaddr loaded)) ∧
    exec (.pmd 6) loaded = .fault (.exception .invpr (recordException .invpr loaded)) ∧
    exec (.syscall 6) (calling 0 .lowUser) = .fault (.exception .invsys (recordException .invsys (calling 0 .lowUser))) ∧
    exec (.ldspr 11 4) { loaded with statPml := 2 } =
      .fault (.exception .insfpem (recordException .insfpem { loaded with statPml := 2 })) := ⟨rfl, rfl, rfl, rfl⟩

/-- For `LevelAndBankChangeOnlyByTheirInstructions`, `OnlyTheNamedFamiliesWrite` and `EveryOtherInstructionAdvances`. -/
theorem witness_whole_machine_rules :
    exec .sync loaded = .next (advance loaded) ∧ loaded.cfg.excEntryGiven = false ∧ changesLevel .sync = false ∧
    changesBank .sync = false ∧ isStore .sync = false ∧ writesGlobals .sync = false ∧ writesFlags .sync = false :=
  ⟨rfl, rfl, rfl, rfl, rfl, rfl, rfl⟩

/-- For `StepKeepsTheInvariant` and `StepKeepsTheModelArguments`: a state that meets the invariant and takes a step. -/
theorem witness_StepKeepsTheInvariant : Inv syncLoaded ∧ see (fun t => t.pc) (step syncLoaded) = some 0x1004 :=
  ⟨⟨by decide, by decide, by decide, by decide, by decide, by decide, by decide, by decide, by decide, by decide⟩,
    by decide⟩

end Sys2Proof.Tests
end

/-! PROOFS. Where the pc goes (10_state.md R31): the pc of each shared update and of each shared operation that answers next,
then the case split over the instructions. -/

namespace Sys2Proof.Machine

section PcRules

variable {s t : State}

/-! ## The pc of the updates -/

@[simp] theorem link_pc (s : State) : (link s).pc = s.pc := writeReg_pc s linkReg _

@[simp] theorem writeFile_pc (f : ImmFile) (i : RegIx) (v : Word) (s : State) : (writeFile f i v s).pc = s.pc := by
  cases f with
  | gp => exact writeBank_pc s .user i v
  | sys => exact writeBank_pc s .sys i v
  | glb => exact writeGlobal_pc s i v

@[simp] theorem writeSpr_pc (r : Spr) (v : Word) (s : State) : (writeSpr r v s).pc = s.pc := by
  cases r with
  | supv r => cases r <;> rfl
  | _ => rfl

@[simp] theorem enterSysCall_pc (e : SysCallEntry) (s : State) : (enterSysCall e s).pc = e.entryPc := rfl

@[simp] theorem returnFromSysCall_pc (s : State) : (returnFromSysCall s).pc = s.sysRetPc := rfl

/-! ## The pc after a shared operation -/

/-- The pc of a next outcome is read off the state the outcome was written with. -/
theorem pc_of_next {u : State} {p : Word} (h : (.next u : Result) = .next t) (hu : u.pc = p) : t.pc = p := by
  obtain rfl := next_inj.1 h
  exact hu

/-- On a machine with no `ExcEntry` an operation that answers next did not go through an exception. -/
theorem resolve_excEntry {p q : Prop} (hx : s.cfg.excEntryGiven = false) (h : (s.cfg.excEntryGiven = true ∧ p) ∨ q) : q :=
  h.resolve_left fun ⟨hg, _⟩ => Bool.eq_false_iff.1 hx hg

theorem shiftByReg_next_pc {op : ShiftOp} {rd rsa rsb : RegIx} {shft : BitVec 7}
    (h : shiftByReg op rd rsa rsb shft s = .next t) : t.pc = s.pc + 4 := by
  obtain ⟨-, rfl⟩ := shiftByReg_next h
  exact finishFreeOV_pc ..

theorem loadImm_next_pc {f : ImmFile} {form : ImmForm} {rd : RegIx} {imm : BitVec 16}
    (h : loadImm f form rd imm s = .next t) : t.pc = s.pc + 4 := by
  obtain rfl := loadImm_next h
  simp

theorem loadFrom_next_pc (hx : s.cfg.excEntryGiven = false) {n : Nat} {rd rsa : RegIx} {imm : BitVec 14}
    (h : loadFrom n rd rsa imm s = .next t) : t.pc = s.pc + 4 := by
  obtain ⟨-, hg, -⟩ | ⟨-, -, rfl⟩ := loadFrom_next h
  · exact absurd hg (Bool.eq_false_iff.1 hx)
  · simp

theorem storeTo_next_pc (hx : s.cfg.excEntryGiven = false) {n : Nat} {rsb rsa : RegIx} {imm : BitVec 14}
    (h : storeTo n rsb rsa imm s = .next t) : t.pc = s.pc + 4 := by
  obtain ⟨-, hg, -⟩ | ⟨-, -, rfl⟩ := storeTo_next h
  · exact absurd hg (Bool.eq_false_iff.1 hx)
  · simp

theorem branchIf_next_pc {cond : Bool} {imm : BitVec 14} (h : branchIf cond imm s = .next t) :
    t.pc = if cond then branchTarget imm s else s.pc + 4 := by
  obtain rfl := branchIf_next h
  cases cond <;> rfl

/-! ## The pc after a system instruction -/

theorem execSyscall_next_pc (hx : s.cfg.excEntryGiven = false) {n : Byte} (h : execSyscall n s = .next t) :
    ∃ rows e, s.cfg.sysCallTable = some rows ∧ sysCallLookup rows s.sysctp n = some e ∧ t.pc = e.entryPc := by
  obtain ⟨rows, e, hrows, -, -, he, -, rfl⟩ := resolve_excEntry hx (execSyscall_next h)
  exact ⟨rows, e, hrows, he, enterSysCall_pc e s⟩

theorem execSysret_next_pc (h : execSysret s = .next t) : t.pc = s.sysRetPc := by
  obtain ⟨-, rfl⟩ := execSysret_next h
  exact returnFromSysCall_pc s

theorem execStspr_next_pc (hx : s.cfg.excEntryGiven = false) {rsa : RegIx} {a : Byte}
    (h : execStspr rsa a s = .next t) : t.pc = s.pc + 4 := by
  obtain ⟨r, -, -, hr⟩ := execStspr_next h
  obtain ⟨-, rfl⟩ := resolve_excEntry hx hr
  simp

theorem execLdspr_next_pc (hx : s.cfg.excEntryGiven = false) {rd : RegIx} {a : Byte}
    (h : execLdspr rd a s = .next t) : t.pc = s.pc + 4 := by
  obtain ⟨r, -, hr⟩ := execLdspr_next h
  obtain ⟨-, rfl⟩ := resolve_excEntry hx hr
  simp

theorem execLock_next_pc {rd rsa : RegIx} (h : execLock rd rsa s = .next t) : t.pc = s.pc + 4 := by
  obtain ⟨r, -, rfl⟩ := execLock_next h
  simp

theorem execTest_next_pc {rd rsa : RegIx} (h : execTest rd rsa s = .next t) : t.pc = s.pc + 4 := by
  obtain ⟨r, -, rfl⟩ := execTest_next h
  simp

/-- Refused levels aside, a request advances at the level it had, at the level it asked for, or there with a draw used up. -/
theorem execPmir_next_pc (hx : s.cfg.excEntryGiven = false) {n : Byte} (h : execPmir n s = .next t) :
    t.pc = s.pc + 4 := by
  obtain rfl | ⟨-, -, rfl | rfl⟩ := resolve_excEntry hx (execPmir_next h)
  · exact advance_pc s
  · simp
  · simp

theorem execPmd_next_pc (hx : s.cfg.excEntryGiven = false) {n : Byte} (h : execPmd n s = .next t) :
    t.pc = s.pc + 4 := by
  obtain rfl | ⟨-, -, rfl⟩ := resolve_excEntry hx (execPmd_next h)
  · exact advance_pc s
  · simp

end PcRules

/-! ## Every instruction -/

/-- Settles O36 (it holds), by cases on the instruction, grouped by the shared operation that sets the pc. -/
theorem everyOtherInstructionAdvances : Obligations.EveryOtherInstructionAdvances := by
  intro i s t h hx
  cases i with
  | add | sub | addi | subi => exact pc_of_next h (finishArith_pc ..)
  | addu | subu | addui | subui => exact pc_of_next h (finishKeepOV_pc ..)
  | not | and | or | xor | comp | noti | andi | ori | xori | sali | sari | slli | slri | compi =>
    exact pc_of_next h (finishFreeOV_pc ..)
  | sal | sar | sll | slr => exact shiftByReg_next_pc h
  | lw | lh | lth | lb => exact loadFrom_next_pc hx h
  | sw | sh | sth | sb => exact storeTo_next_pc hx h
  | li | lsi | lgi | lui | lusi | lugi | lni | lnsi | lngi | luni | lunsi | lungi => exact loadImm_next_pc h
  | beq | bne => simpa using branchIf_next_pc h
  | bgt | blt => exact branchIf_next_pc h
  | j | jal | jr | jrl => exact pc_of_next h (setPc_pc ..)
  | syscall => exact execSyscall_next_pc hx h
  | sysret => exact execSysret_next_pc h
  | stspr => exact execStspr_next_pc hx h
  | ldspr => exact execLdspr_next_pc hx h
  | sync => exact pc_of_next h (advance_pc s)
  | lock => exact execLock_next_pc h
  | test => exact execTest_next_pc h
  | pmir => exact execPmir_next_pc hx h
  | pmd => exact execPmd_next_pc hx h

end Sys2Proof.Machine

/-! PROOFS. A multi-byte access is big endian (20_memory.md R76, R77): the bytes of a word that grows at its low end, then reads
and writes each by induction on the number of bytes. -/

namespace Sys2Proof.Machine

/-! ## The bytes of a word that grows by a byte at its low end -/

theorem toNat_shiftLeft_or_byte_lt {x : Word} {n : Nat} (hx : x.toNat < 2 ^ n) (b : Byte) :
    (x <<< 8 ||| b.setWidth 32).toNat < 2 ^ (n + 8) := by
  have hshift : (x <<< 8).toNat < 2 ^ (n + 8) := by
    rw [BitVec.toNat_shiftLeft, Nat.shiftLeft_eq]
    refine (Nat.mod_le _ _).trans_lt ?_
    rw [Nat.pow_add]
    exact Nat.mul_lt_mul_of_pos_right hx (by decide)
  have hbyte : (b.setWidth 32).toNat < 2 ^ (n + 8) := by
    rw [BitVec.toNat_setWidth_of_le (by decide)]
    exact b.isLt.trans_le (Nat.pow_le_pow_right (by decide) (by omega))
  rw [BitVec.toNat_or]
  exact Nat.or_lt_two_pow hshift hbyte

theorem extractLsb'_zero_shiftLeft_or_byte (x : Word) (b : Byte) :
    (x <<< 8 ||| b.setWidth 32).extractLsb' 0 8 = b := by
  ext i hi
  have h32 : i < 32 := by omega
  simp [hi, h32]

theorem extractLsb'_add_eight_shiftLeft_or_byte (x : Word) (b : Byte) {m : Nat} (hm : m + 16 ≤ 32) :
    (x <<< 8 ||| b.setWidth 32).extractLsb' (m + 8) 8 = x.extractLsb' m 8 := by
  ext i hi
  have h32 : m + 8 + i < 32 := by omega
  have hsub : m + 8 + i - 8 = m + i := by omega
  have habove : b.getLsbD (m + 8 + i) = false := BitVec.getLsbD_of_ge b _ (by omega)
  simp only [BitVec.getElem_extractLsb', BitVec.getLsbD_or, BitVec.getLsbD_shiftLeft, BitVec.getLsbD_setWidth, h32, hsub,
    habove]
  simp [show ¬ m + 8 + i < 8 by omega]

theorem extractLsb'_ushiftRight_eight (v : Word) (m : Nat) :
    (v >>> 8).extractLsb' m 8 = v.extractLsb' (m + 8) 8 := by
  ext i hi
  simp [Nat.add_assoc, Nat.add_comm 8]

/-- Where byte `k` of `n + 1` stands: one byte higher than in the access of `n`. -/
theorem byteOffset_succ {n k : Nat} (hk : k < n) : 8 * (n + 1 - 1 - k) = 8 * (n - 1 - k) + 8 := by omega

/-! ## `MemRead` (R76) -/

/-- A read of `n` bytes has zeros above them. -/
theorem loadValue_lt (s : State) (a : Word) (n : Nat) : (loadValue s a n).toNat < 2 ^ (8 * n) := by
  induction n with
  | zero => simp [loadValue]
  | succ n ih => exact toNat_shiftLeft_or_byte_lt ih _

/-- Byte `k` of a read, counted from the most significant one, is the byte at the address plus `k`. -/
theorem extractLsb'_loadValue (s : State) (a : Word) {n k : Nat} (hn : n ≤ 4) (hk : k < n) :
    (loadValue s a n).extractLsb' (8 * (n - 1 - k)) 8 = dataByte s (a + BitVec.ofNat 32 k) := by
  induction n with
  | zero => omega
  | succ n ih =>
    obtain hlt | rfl := Nat.lt_succ_iff_lt_or_eq.1 hk
    · rw [byteOffset_succ hlt, loadValue, extractLsb'_add_eight_shiftLeft_or_byte _ _ (by omega)]
      exact ih (by omega) hlt
    · simpa [loadValue] using extractLsb'_zero_shiftLeft_or_byte _ _

/-! ## `MemWrite` (R77) -/

/-- After a store byte `k` of the value, counted from the most significant one stored, stands at the address plus `k`: the
later writes of the store go to other addresses. -/
theorem memRead_storeValue_byte (m : Memory) (a v : Word) {n k : Nat} (hn : n ≤ 4) (hk : k < n) :
    memRead (storeValue m a v n) (a + BitVec.ofNat 32 k).toNat = some (v.extractLsb' (8 * (n - 1 - k)) 8) := by
  induction n generalizing v with
  | zero => omega
  | succ n ih =>
    rw [memRead_storeValue_succ]
    obtain hlt | rfl := Nat.lt_succ_iff_lt_or_eq.1 hk
    · have hother : (a + BitVec.ofNat 32 k).toNat ≠ (a + BitVec.ofNat 32 n).toNat :=
        fun h => hlt.ne ((add_ofNat_inj a (by omega) (by omega)).1 h)
      rw [if_neg hother, ih (v >>> 8) (by omega) hlt, extractLsb'_ushiftRight_eight, byteOffset_succ hlt]
    · simp [BitVec.setWidth_eq_extractLsb']

/-- A store changes no byte but its own. -/
theorem memRead_storeValue_frame (m : Memory) (a v x : Word) {n : Nat}
    (hx : ∀ k < n, x ≠ a + BitVec.ofNat 32 k) : memRead (storeValue m a v n) x.toNat = memRead m x.toNat := by
  induction n generalizing v with
  | zero => rfl
  | succ n ih =>
    have hother : x.toNat ≠ (a + BitVec.ofNat 32 n).toNat :=
      fun h => hx n n.lt_succ_self (BitVec.eq_of_toNat_eq h)
    rw [memRead_storeValue_succ, if_neg hother]
    exact ih _ fun k hk => hx k (hk.trans n.lt_succ_self)

/-- Settles O21 (it holds): reads and writes each by induction on the number of bytes. -/
theorem memoryAccessIsBigEndian : Obligations.MemoryAccessIsBigEndian := fun s a v n _ hn =>
  ⟨loadValue_lt s a n, fun _ hk => extractLsb'_loadValue s a hn hk,
    fun _ hk => memRead_storeValue_byte s.dmem a v hn hk, fun x hx => memRead_storeValue_frame s.dmem a v x hx⟩

end Sys2Proof.Machine

/-! PROOFS. addu and subu (40_integer.md R140, R144, R145): the decoding of format R, what a register write changes, then
the one effect of every instruction that ends in `finishKeepOV`. -/

namespace Sys2Proof

/-- A word of format R goes to the integer class, under either map (30_encoding.md R113, R114). -/
theorem decodeWord_encodeR (m : OpMap) (rd rsa rsb : RegIx) (shft : BitVec 7) (aluop : BitVec 4) :
    decodeWord m (encodeR m rd rsa rsb shft aluop) = decodeInteger (encodeR m rd rsa rsb shft aluop) := by
  rw [decodeWord, opcodeOf_encodeR, classOf_opcodeFor]

theorem decodeWord_encode_addu (m : OpMap) (rd rsa rsb : RegIx) :
    decodeWord m (encode m (.addu rd rsa rsb)) = .instr (.addu rd rsa rsb) := by
  simp [encode, decodeWord_encodeR, decodeInteger]

theorem decodeWord_encode_subu (m : OpMap) (rd rsa rsb : RegIx) :
    decodeWord m (encode m (.subu rd rsa rsb)) = .instr (.subu rd rsa rsb) := by
  simp [encode, decodeWord_encodeR, decodeInteger]

end Sys2Proof

namespace Sys2Proof.Machine

/-! ## The frame of a register write -/

/-- Two banks keep a register in the same file exactly when they are one bank or share it (10_state.md R24, R25). -/
theorem homeIsGp_eq_iff (c : Config) (b b' : Bank) (i : RegIx) :
    homeIsGp c b' i = homeIsGp c b i ↔ b' = b ∨ i ∈ c.bankShared := by
  cases b <;> cases b' <;> simp [homeIsGp]

/-- Two names are one register exactly when the numbers agree and the banks keep it in the same file. -/
theorem sameReg_iff {c : Config} {b b' : Bank} {i j : RegIx} :
    SameReg c b i b' j ↔ j = i ∧ homeIsGp c b' i = homeIsGp c b i := by
  rw [SameReg, homeIsGp_eq_iff]

/-- A register write changes its register and no other (10_state.md R23 to R25). -/
theorem regWritten_writeBank (s : State) (b : Bank) (i : RegIx) (v : Word) :
    RegWritten s (writeBank b i v s) b i v := by
  refine ⟨fun b' j hi hsame => ?_, fun b' j hother => ?_, fun j => readGlobal_writeBank b i j v s⟩
  · rw [readBank_writeBank, if_pos ⟨hi, sameReg_iff.1 hsame⟩]
  · rw [readBank_writeBank, if_neg fun ⟨hi, hsame⟩ => hother.elim hi (· (sameReg_iff.2 hsame))]

/-! ## The effect of an ending that keeps OV (40_integer.md R140) -/

theorem regWritten_finishKeepOV (s : State) (rd : RegIx) (r : Word) :
    RegWritten s (finishKeepOV rd r s) s.bank rd r := by
  obtain ⟨hsame, hother, _⟩ := regWritten_writeBank s s.bank rd r
  simp only [RegWritten, readBank_finishKeepOV]
  exact ⟨hsame, hother, readGlobal_congr (finishKeepOV_glbregf s rd r)⟩

theorem sameSystem_finishKeepOV (s : State) (rd : RegIx) (r : Word) : SameSystem s (finishKeepOV rd r s) := by
  simp [SameSystem, SameStatRest, SameSprs, SameHidden, SameCode]

theorem sameData_finishKeepOV (s : State) (rd : RegIx) (r : Word) : SameData s (finishKeepOV rd r s) :=
  dataByte?_congr (finishKeepOV_cfg s rd r) (finishKeepOV_dmem s rd r) (finishKeepOV_imem s rd r)

theorem aluEffect_finishKeepOV (s : State) (rd : RegIx) (r : Word) : AluEffect s (finishKeepOV rd r s) rd r :=
  ⟨finishKeepOV_pc s rd r, regWritten_finishKeepOV s rd r, finishKeepOV_statZ s rd r,
    sameSystem_finishKeepOV s rd r, sameData_finishKeepOV s rd r⟩

/-! ## addu and subu -/

/-- Subtraction modulo 2^32, as the difference of the unsigned values (40_integer.md R141). -/
theorem toNat_sub_eq_emod (a b : Word) : ((a - b).toNat : Int) = (a.toNat - b.toNat : Int) % 2 ^ 32 := by
  bv_omega

theorem exec_addu (rd rsa rsb : RegIx) (s : State) :
    exec (.addu rd rsa rsb) s = .next (finishKeepOV rd (readReg rsa s + readReg rsb s) s) := rfl

theorem exec_subu (rd rsa rsb : RegIx) (s : State) :
    exec (.subu rd rsa rsb) s = .next (finishKeepOV rd (readReg rsa s - readReg rsb s) s) := rfl

/-- What an instruction with the ending that keeps OV does: the common effect, with OV and ROI as they were. -/
theorem exists_effect_of_finishKeepOV {i : Instr} {s : State} {rd : RegIx} {r : Word} {p : Word → Prop}
    (hexec : exec i s = .next (finishKeepOV rd r s)) (hr : p r) :
    ∃ t r, exec i s = .next t ∧ AluEffect s t rd r ∧ p r ∧ t.statOV = s.statOV ∧ t.roiPending = s.roiPending :=
  ⟨finishKeepOV rd r s, r, hexec, aluEffect_finishKeepOV s rd r, hr, finishKeepOV_statOV s rd r,
    finishKeepOV_roiPending s rd r⟩

/-- Settles O12 (it holds): the words are the encoder's, and both instructions end in `finishKeepOV`. -/
theorem unsignedAddAndSub : Obligations.UnsignedAddAndSub := fun s rd rsa rsb =>
  have heffectAdd := exists_effect_of_finishKeepOV (exec_addu rd rsa rsb s) (BitVec.toNat_add _ _)
  have heffectSub := exists_effect_of_finishKeepOV (exec_subu rd rsa rsb s) (toNat_sub_eq_emod _ _)
  ⟨⟨decodeWord_encode_addu .rev02 rd rsa rsb, decodeWord_encode_addu .summary rd rsa rsb,
      decodeWord_encode_subu .rev02 rd rsa rsb, decodeWord_encode_subu .summary rd rsa rsb⟩,
    rfl, rfl, heffectAdd, heffectSub⟩

end Sys2Proof.Machine

/-! PROOFS. sync (45_system.md R250): the decoding of format SYS, the words the encoder gives sync, then its one effect. -/

namespace Sys2Proof

/-- A word of format SYS goes to the system class, under either map (30_encoding.md R113, R114). -/
theorem decodeWord_encodeSys (m : OpMap) (rd rsa : RegIx) (funct imm : BitVec 8) :
    decodeWord m (encodeSys m rd rsa funct imm) = decodeSystem (encodeSys m rd rsa funct imm) := by
  rw [decodeWord, opcodeOf_encodeSys, classOf_opcodeFor]

theorem decodeWord_encode_sync (m : OpMap) : decodeWord m (encode m .sync) = .instr .sync := by
  simp [encode, decodeWord_encodeSys, decodeSystem]

theorem encode_rev02_sync : encode .rev02 .sync = 0x80000400 := by decide

theorem encode_summary_sync : encode .summary .sync = 0x20000400 := by decide

end Sys2Proof

namespace Sys2Proof.Machine

theorem exec_sync (s : State) : exec .sync s = .next (advance s) := rfl

/-- Settles O48 (it holds): the words are the encoder's, and sync does no more than advance the pc. -/
theorem syncOnlyAdvances : Obligations.SyncOnlyAdvances :=
  have hrev02 : decodeWord .rev02 0x80000400 = .instr .sync := encode_rev02_sync ▸ decodeWord_encode_sync .rev02
  have hsummary : decodeWord .summary 0x20000400 = .instr .sync :=
    encode_summary_sync ▸ decodeWord_encode_sync .summary
  ⟨hrev02, hsummary, rfl, exec_sync⟩

end Sys2Proof.Machine

/-! PROOFS. The decoder and the encoder (30_encoding.md): which class an opcode has, what a word of each class decodes to, the
round trip, then which bits of a word the decoding depends on. -/

namespace Sys2Proof

/-! ## The class of an opcode (R113, R114, R124) -/

theorem classOfRev02_eq_coProcessor : ∀ op : BitVec 6, 0x30 ≤ op.toNat → classOf .rev02 op = some .coProcessor := by
  decide

theorem classOfSummary_eq_coProcessor : ∀ op : BitVec 6, 0x20 ≤ op.toNat → classOf .summary op = some .coProcessor := by
  decide

theorem classOfRev02_eq_none : ∀ op : BitVec 6, op.toNat < 0x30 →
    op.toNat ∉ [0x04, 0x0C, 0x0D, 0x10, 0x13, 0x16, 0x1D, 0x1E, 0x20] → classOf .rev02 op = none := by
  decide

theorem classOfSummary_eq_none : ∀ op : BitVec 6, op.toNat < 0x20 →
    op.toNat ∉ [0x01, 0x02, 0x03, 0x05, 0x06, 0x07, 0x08, 0x12, 0x1A] → classOf .summary op = none := by
  decide

/-! ## The decoder by class -/

/-- What a word of a class decodes to. -/
def decodeClass (w : Word) : OpClass → Decoded
  | .integer => decodeInteger w
  | .immediate => decodeImmediate w
  | .loadImmediate => decodeLoadImmediate w
  | .branch => decodeBranch w
  | .jump => decodeJump w
  | .jumpLink => decodeJumpLink w
  | .system => decodeSystem w
  | .load => decodeLoad w
  | .store => decodeStore w
  | .coProcessor => .coProcessor (opcodeOf w) w

theorem decodeWord_of_class {m : OpMap} {w : Word} {c : OpClass} (h : classOf m (opcodeOf w) = some c) :
    decodeWord m w = decodeClass w c := by
  rw [decodeWord, h]
  cases c <;> rfl

theorem decodeWord_of_opcode (m : OpMap) (c : OpClass) {w : Word} (h : opcodeOf w = opcodeFor m c) :
    decodeWord m w = decodeClass w c :=
  decodeWord_of_class (by rw [h, classOf_opcodeFor])

theorem decodeWord_unassigned {m : OpMap} {w : Word} (h : classOf m (opcodeOf w) = none) :
    decodeWord m w = .illegal (.unassignedOpcode (opcodeOf w)) := by
  rw [decodeWord, h]

/-! ## The round trip -/

/-- Decoding undoes encoding, by cases on the instruction grouped by format: the encoder's opcode leads to the format's decoder,
which reads back the selector and the operands. -/
theorem decodeWord_encode (m : OpMap) (i : Instr) (h : i.encodable = true) : decodeWord m (encode m i) = .instr i := by
  cases i with
  | add | sub | addu | subu | not | and | or | xor | sal | sar | sll | slr | comp =>
    exact (decodeWord_of_opcode _ .integer (opcodeOf_encodeR ..)).trans (by simp [decodeClass, decodeInteger])
  | addi | subi | addui | subui | noti | andi | ori | xori | sali | sari | slli | slri | compi =>
    exact (decodeWord_of_opcode _ .immediate (opcodeOf_encodeI ..)).trans (by simp [decodeClass, decodeImmediate])
  | lw | lh | lth | lb =>
    exact (decodeWord_of_opcode _ .load (opcodeOf_encodeL ..)).trans (by simp [decodeClass, decodeLoad])
  | sw | sh | sth | sb =>
    exact (decodeWord_of_opcode _ .store (opcodeOf_encodeS ..)).trans (by simp [decodeClass, decodeStore])
  | li | lsi | lgi | lui | lusi | lugi | lni | lnsi | lngi | luni | lunsi | lungi =>
    exact (decodeWord_of_opcode _ .loadImmediate (opcodeOf_encodeLI ..)).trans (by simp [decodeClass, decodeLoadImmediate])
  | beq | bne | bgt | blt =>
    exact (decodeWord_of_opcode _ .branch (opcodeOf_encodeB ..)).trans (by simp [decodeClass, decodeBranch])
  | j => exact (decodeWord_of_opcode _ .jump (opcodeOf_encodeJ ..)).trans (by simp [decodeClass, decodeJump])
  | jal => exact (decodeWord_of_opcode _ .jumpLink (opcodeOf_encodeJ ..)).trans (by simp [decodeClass, decodeJumpLink])
  | jr rsa =>
    have hbase : rsa ≠ 0 := by simpa [Instr.encodable] using h
    exact (decodeWord_of_opcode _ .jump (opcodeOf_encodeJ ..)).trans (by simpa [decodeClass, decodeJump] using hbase)
  | jrl rsa =>
    have hbase : rsa ≠ 0 := by simpa [Instr.encodable] using h
    exact (decodeWord_of_opcode _ .jumpLink (opcodeOf_encodeJ ..)).trans (by simpa [decodeClass, decodeJumpLink] using hbase)
  | syscall | sysret | stspr | ldspr | sync | lock | test | pmir | pmd =>
    exact (decodeWord_of_opcode _ .system (opcodeOf_encodeSys ..)).trans (by simp [decodeClass, decodeSystem])

/-- Settles O1 (it holds): the round trip, one case per instruction. -/
theorem decodeUndoesEncode : Obligations.DecodeUndoesEncode := decodeWord_encode

/-- Settles O2 (it holds): the decoder run on each word. -/
theorem specWordsDecode : Obligations.SpecWordsDecode := by
  unfold Obligations.SpecWordsDecode
  decide

/-! ## Reserved selectors (R121 to R123) -/

section Reserved

variable {w : Word}

theorem decodeInteger_reserved (h : 0xd ≤ (aluopOf w).toNat) :
    decodeInteger w = .illegal (.reservedAluop (aluopOf w)) := by
  unfold decodeInteger
  split <;> simp_all

theorem decodeImmediate_reserved (h : 0xd ≤ (aluopOf w).toNat) :
    decodeImmediate w = .illegal (.unlistedImmAluop (aluopOf w)) := by
  unfold decodeImmediate
  split <;> simp_all

theorem decodeLoadImmediate_unlisted (h : (dselOf w).toNat ∈ [0x6, 0x7, 0xe, 0xf] ∨ 0x10 ≤ (dselOf w).toNat) :
    decodeLoadImmediate w = .illegal (.unlistedDsel (dselOf w)) := by
  unfold decodeLoadImmediate
  split <;> simp_all

theorem decodeSystem_unlisted (h : 0x09 ≤ (sysFunctOf w).toNat) :
    decodeSystem w = .illegal (.unlistedFunct (sysFunctOf w)) := by
  unfold decodeSystem
  split <;> simp_all

end Reserved

/-- Settles O3 (it holds): the opcode leads to the format's decoder, whose last arm is the only one left. -/
theorem unlistedSelectorsAreIllegal : Obligations.UnlistedSelectorsAreIllegal := fun _ _ =>
  ⟨fun hop h => (decodeWord_of_opcode _ .integer hop).trans (decodeInteger_reserved h),
    fun hop h => (decodeWord_of_opcode _ .immediate hop).trans (decodeImmediate_reserved h),
    fun hop h => (decodeWord_of_opcode _ .loadImmediate hop).trans (decodeLoadImmediate_unlisted h),
    fun hop h => (decodeWord_of_opcode _ .system hop).trans (decodeSystem_unlisted h)⟩

/-- Settles O4 (it holds): an opcode of either map is that of its class, and the others by their ranges. -/
theorem opcodeSpaceIsPartitioned : Obligations.OpcodeSpaceIsPartitioned := fun _ =>
  ⟨decodeWord_of_opcode .rev02 .integer, decodeWord_of_opcode .rev02 .immediate, decodeWord_of_opcode .rev02 .loadImmediate,
    decodeWord_of_opcode .rev02 .branch, decodeWord_of_opcode .rev02 .jump, decodeWord_of_opcode .rev02 .jumpLink,
    decodeWord_of_opcode .rev02 .system, decodeWord_of_opcode .rev02 .load, decodeWord_of_opcode .rev02 .store,
    decodeWord_of_opcode .summary .integer, decodeWord_of_opcode .summary .immediate, decodeWord_of_opcode .summary .loadImmediate,
    decodeWord_of_opcode .summary .branch, decodeWord_of_opcode .summary .jump, decodeWord_of_opcode .summary .jumpLink,
    decodeWord_of_opcode .summary .system, decodeWord_of_opcode .summary .load, decodeWord_of_opcode .summary .store,
    fun h => decodeWord_of_class (classOfRev02_eq_coProcessor _ h),
    fun hlt h => decodeWord_unassigned (classOfRev02_eq_none _ hlt h),
    fun h => decodeWord_of_class (classOfSummary_eq_coProcessor _ h),
    fun hlt h => decodeWord_unassigned (classOfSummary_eq_none _ hlt h)⟩

/-! ## The bits a decoding depends on (R126) -/

section UsedBits

variable {w w' : Word}

theorem decodeInteger_congr (hop : aluopOf w' = aluopOf w) (hrd : rdOf w' = rdOf w) (hrsa : rsaOf w' = rsaOf w)
    (hrsb : aluopOf w ≠ 0x4 → rsbOf w' = rsbOf w)
    (hshft : aluopOf w ∈ [0x8, 0x9, 0xa, 0xb] → shftOf w' = shftOf w) : decodeInteger w' = decodeInteger w := by
  unfold decodeInteger
  rw [hop, hrd, hrsa]
  split <;> simp_all

theorem decodeImmediate_congr (hop : aluopOf w' = aluopOf w) (hrd : rdOf w' = rdOf w) (himm : imm12Of w' = imm12Of w)
    (hrsa : aluopOf w ≠ 0x4 → rsaOf w' = rsaOf w) : decodeImmediate w' = decodeImmediate w := by
  unfold decodeImmediate
  rw [hop, hrd, himm]
  split <;> simp_all

theorem decodeSystem_congr (hop : sysFunctOf w' = sysFunctOf w) (hrd : sysFunctOf w ∈ [0x3, 0x5, 0x6] → rdOf w' = rdOf w)
    (hrsa : sysFunctOf w ∈ [0x2, 0x5, 0x6] → rsaOf w' = rsaOf w)
    (himm : sysFunctOf w ∈ [0x0, 0x2, 0x3, 0x7, 0x8] → imm8Of w' = imm8Of w) : decodeSystem w' = decodeSystem w := by
  unfold decodeSystem
  rw [hop]
  split <;> simp_all

/-- Words that agree in the bits the instruction uses decode alike: only formats R, I and SYS leave bits unused. -/
theorem decodeWord_congr {m : OpMap} (h : SameUsedBits m w w') : decodeWord m w' = decodeWord m w := by
  obtain ⟨hopcode, hinteger, himmediate, hsystem, hother⟩ := h
  by_cases hr : opcodeOf w = opcodeFor m .integer
  · obtain ⟨hop, hrd, hrsa, hrsb, hshft⟩ := hinteger hr
    rw [decodeWord_of_opcode _ .integer hr, decodeWord_of_opcode _ .integer (hopcode.trans hr)]
    exact decodeInteger_congr hop hrd hrsa hrsb hshft
  by_cases hi : opcodeOf w = opcodeFor m .immediate
  · obtain ⟨hop, hrd, himm, hrsa⟩ := himmediate hi
    rw [decodeWord_of_opcode _ .immediate hi, decodeWord_of_opcode _ .immediate (hopcode.trans hi)]
    exact decodeImmediate_congr hop hrd himm hrsa
  by_cases hs : opcodeOf w = opcodeFor m .system
  · obtain ⟨hop, hrd, hrsa, himm⟩ := hsystem hs
    rw [decodeWord_of_opcode _ .system hs, decodeWord_of_opcode _ .system (hopcode.trans hs)]
    exact decodeSystem_congr hop hrd hrsa himm
  · rw [hother (by simp [hr, hi, hs])]

/-- A word never decodes to `jr` or `jrl` with base 0: rsa = 0 makes it `j` or `jal` (R226). -/
theorem encodable_of_decodeWord {m : OpMap} {i : Instr} (h : decodeWord m w = .instr i) : i.encodable = true := by
  cases hclass : classOf m (opcodeOf w) with
  | none => simp [decodeWord_unassigned hclass] at h
  | some c =>
    rw [decodeWord_of_class hclass] at h
    cases c with
    | integer => dsimp only [decodeClass, decodeInteger] at h; split at h <;> cases h <;> rfl
    | immediate => dsimp only [decodeClass, decodeImmediate] at h; split at h <;> cases h <;> rfl
    | loadImmediate => dsimp only [decodeClass, decodeLoadImmediate] at h; split at h <;> cases h <;> rfl
    | branch => dsimp only [decodeClass, decodeBranch] at h; split at h <;> cases h <;> rfl
    | jump | jumpLink =>
      dsimp only [decodeClass, decodeJump, decodeJumpLink] at h
      split at h <;> cases h
      · rfl
      · simpa [Instr.encodable] using ‹¬ rsaOf w = 0›
    | system => dsimp only [decodeClass, decodeSystem] at h; split at h <;> cases h <;> rfl
    | load => dsimp only [decodeClass, decodeLoad] at h; split at h <;> cases h <;> rfl
    | store => dsimp only [decodeClass, decodeStore] at h; split at h <;> cases h <;> rfl
    | coProcessor => cases h

end UsedBits

/-- Settles O5 (it holds): the decoder reads a word through the fields of its class only. -/
theorem unusedBitsAreIgnored : Obligations.UnusedBitsAreIgnored := fun m _ =>
  ⟨fun _ => decodeWord_congr, fun i h =>
    have henc := encodable_of_decodeWord h
    ⟨henc, (decodeWord_encode m i henc).trans h.symm⟩⟩

end Sys2Proof

/-! PROOFS. What an instruction that completes leaves, said once (`Completes`), and the whole-machine rules that follow from it:
the model arguments, the level and the bank, who writes what, the invariant; then what one that raises an exception leaves
(`Raises`). -/

namespace Sys2Proof.Machine

/-! ## The updates of the special purpose registers and of the system call, each as one record update -/

section Updates

variable (s : State)

/-- A register write changes fields of special purpose registers alone. -/
theorem writeSpr_eq (r : Spr) (v : Word) :
    writeSpr r v s =
      { s with
        statGine := (writeSpr r v s).statGine, statSpcp := (writeSpr r v s).statSpcp
        opcarp := (writeSpr r v s).opcarp, cpidtp := (writeSpr r v s).cpidtp, uinten := (writeSpr r v s).uinten
        rptinfo := (writeSpr r v s).rptinfo, rpid := (writeSpr r v s).rpid, smstat := (writeSpr r v s).smstat
        rpcpr0 := (writeSpr r v s).rpcpr0, rpitp := (writeSpr r v s).rpitp, htinfop := (writeSpr r v s).htinfop
        htctlp := (writeSpr r v s).htctlp, ecode := (writeSpr r v s).ecode, sysctp := (writeSpr r v s).sysctp } := by
  cases r with
  | supv r => cases r <;> rfl
  | _ => rfl

@[simp] theorem writeSpr_cfg (r : Spr) (v : Word) : (writeSpr r v s).cfg = s.cfg := by rw [writeSpr_eq]
@[simp] theorem writeSpr_bank (r : Spr) (v : Word) : (writeSpr r v s).bank = s.bank := by rw [writeSpr_eq]
@[simp] theorem writeSpr_gpregf (r : Spr) (v : Word) : (writeSpr r v s).gpregf = s.gpregf := by rw [writeSpr_eq]
@[simp] theorem writeSpr_sysregf (r : Spr) (v : Word) : (writeSpr r v s).sysregf = s.sysregf := by rw [writeSpr_eq]
@[simp] theorem writeSpr_glbregf (r : Spr) (v : Word) : (writeSpr r v s).glbregf = s.glbregf := by rw [writeSpr_eq]
@[simp] theorem writeSpr_statZ (r : Spr) (v : Word) : (writeSpr r v s).statZ = s.statZ := by rw [writeSpr_eq]
@[simp] theorem writeSpr_statOV (r : Spr) (v : Word) : (writeSpr r v s).statOV = s.statOV := by rw [writeSpr_eq]
@[simp] theorem writeSpr_statPema (r : Spr) (v : Word) : (writeSpr r v s).statPema = s.statPema := by rw [writeSpr_eq]
@[simp] theorem writeSpr_statPml (r : Spr) (v : Word) : (writeSpr r v s).statPml = s.statPml := by rw [writeSpr_eq]
@[simp] theorem writeSpr_device (r : Spr) (v : Word) : (writeSpr r v s).device = s.device := by rw [writeSpr_eq]
@[simp] theorem writeSpr_imem (r : Spr) (v : Word) : (writeSpr r v s).imem = s.imem := by rw [writeSpr_eq]
@[simp] theorem writeSpr_dmem (r : Spr) (v : Word) : (writeSpr r v s).dmem = s.dmem := by rw [writeSpr_eq]

/-- The entry of a system call as one record update. -/
theorem enterSysCall_eq (e : SysCallEntry) :
    enterSysCall e s =
      { s with
        pc := e.entryPc, bank := .sys, sysRetPc := s.pc + 4, sysRetPml := level s, draws := s.draws + 1
        statPema := if s.cfg.pmlImplemented then .known true else s.statPema
        statPml := if s.cfg.pmlImplemented then routineLevel e s else s.statPml } := by
  simp only [enterSysCall, setLevel_eq, setPema_eq, setPc]

/-- The return from a system call as one record update. -/
theorem returnFromSysCall_eq :
    returnFromSysCall s =
      { s with
        pc := s.sysRetPc, bank := .user
        statPml := if s.cfg.pmlImplemented then s.sysRetPml else s.statPml } := by
  simp only [returnFromSysCall, setLevel_eq, setPc]

end Updates

theorem level_congr {s t : State} (hcfg : t.cfg = s.cfg) (hpml : t.statPml = s.statPml) : level t = level s := by
  simp only [level, hcfg, hpml]

theorem level_of_not_implemented {s : State} (h : s.cfg.pmlImplemented = false) : level s = 7 := by
  simp [level, h]

theorem pema_of_not_implemented {s : State} (h : s.cfg.pmlImplemented = false) : pema s = .known true := by
  simp [pema, h]

/-! ## What an instruction that completes leaves -/

/-- The states an instruction can answer `next` with, one constructor for each kind of update; the last is the state `ExcEntry`
invents. -/
inductive Completes (s : State) (i : Instr) : State → Prop
  /-- The integer and immediate families: Rd, the flags, ROI's pending bit. -/
  | alu (hi : writesFlags i = true) (rd : RegIx) (r : Word) (z ov : Flag) (roi : Bool) :
      Completes s i (advance { writeReg rd r s with statZ := z, statOV := ov, roiPending := roi })
  /-- One general register: load immediates, linking jumps, ldspr, lock, test. -/
  | register (b : Bank) (rd : RegIx) (r p : Word) (resource draws : Nat) :
      Completes s i { writeBank b rd r s with pc := p, resource := resource, draws := draws }
  /-- One global register. -/
  | global (hi : writesGlobals i = true) (rd : RegIx) (r : Word) : Completes s i (advance (writeGlobal rd r s))
  | load (hi : isLoad i = true) (rd : RegIx) (r : Word) (device draws : Nat) :
      Completes s i (advance { writeReg rd r s with draws := draws, device := device })
  | store (hi : isStore i = true) (a v : Word) (n device : Nat) :
      Completes s i (advance { s with dmem := storeValue s.dmem a v n, device := device })
  /-- The pc alone: branches, jumps, sync. -/
  | jump (p : Word) : Completes s i (setPc p s)
  | spr (r : Spr) (v : Word) : Completes s i (advance (writeSpr r v s))
  /-- A permission level that exists on the machine. -/
  | level (hi : changesLevel i = true) (n : Byte) (hn : validLevel s.cfg n = true) (draws : Nat) :
      Completes s i (advance { setLevel (n.setWidth 3) s with draws := draws })
  | syscall (hi : changesLevel i = true ∧ changesBank i = true) (e : SysCallEntry) : Completes s i (enterSysCall e s)
  | sysret (hi : changesLevel i = true ∧ changesBank i = true) : Completes s i (returnFromSysCall s)
  /-- An exception on a machine with `ExcEntry`. -/
  | entered {t : State} (hgiven : s.cfg.excEntryGiven = true) (hcfg : t.cfg = s.cfg) : Completes s i t

section Shapes

variable {s t : State} {i : Instr} {x : ExcCode}

theorem completes_loadFrom (hi : isLoad i = true) {n : Nat} {rd rsa : RegIx} {imm : BitVec 14}
    (h : loadFrom n rd rsa imm s = .next t) : Completes s i t := by
  obtain ⟨-, hg, rfl⟩ | ⟨-, -, rfl⟩ := loadFrom_next h
  · exact .entered hg rfl
  · exact .load hi ..

theorem completes_storeTo (hi : isStore i = true) {n : Nat} {rsb rsa : RegIx} {imm : BitVec 14}
    (h : storeTo n rsb rsa imm s = .next t) : Completes s i t := by
  obtain ⟨-, hg, rfl⟩ | ⟨-, -, rfl⟩ := storeTo_next h
  · exact .entered hg rfl
  · exact .store hi ..

theorem completes_branchIf {cond : Bool} {imm : BitVec 14} (h : branchIf cond imm s = .next t) : Completes s i t := by
  obtain rfl := branchIf_next h
  cases cond
  · exact .jump (s.pc + 4)
  · exact .jump (branchTarget imm s)

theorem completes_finishKeepOV (hi : writesFlags i = true) (rd : RegIx) (r : Word) :
    Completes s i (finishKeepOV rd r s) :=
  .alu hi rd r (.known (zeroFlag r)) (writeReg rd r s).statOV (writeReg rd r s).roiPending

theorem completes_finishArith (hi : writesFlags i = true) (rd : RegIx) (r : Word) (ov : Bool) :
    Completes s i (finishArith rd r ov s) :=
  .alu hi rd r (.known (zeroFlag r)) (.known ov) (s.roiPending || ov)

theorem completes_finishFreeOV (hi : writesFlags i = true) (rd : RegIx) (r : Word) :
    Completes s i (finishFreeOV rd r s) :=
  .alu hi rd r (.known (zeroFlag r)) s.cfg.ovNonArith (writeReg rd r s).roiPending

theorem completes_shiftByReg (hi : writesFlags i = true) {op : ShiftOp} {rd rsa rsb : RegIx} {shft : BitVec 7}
    (h : shiftByReg op rd rsa rsb shft s = .next t) : Completes s i t := by
  obtain ⟨-, rfl⟩ := shiftByReg_next h
  exact completes_finishFreeOV hi ..

theorem completes_execSyscall {n : Byte} (h : execSyscall n s = .next t) : Completes s (.syscall n) t := by
  obtain ⟨hg, hcfg⟩ | ⟨_, e, -, -, -, -, -, rfl⟩ := execSyscall_next h
  · exact .entered hg hcfg
  · exact .syscall ⟨rfl, rfl⟩ e

theorem completes_execStspr {rsa : RegIx} {a : Byte} (h : execStspr rsa a s = .next t) : Completes s i t := by
  obtain ⟨r, -, -, ⟨hg, hcfg⟩ | ⟨-, rfl⟩⟩ := execStspr_next h
  · exact .entered hg hcfg
  · exact .spr r _

theorem completes_execLdspr {rd : RegIx} {a : Byte} (h : execLdspr rd a s = .next t) : Completes s i t := by
  obtain ⟨r, -, ⟨hg, hcfg⟩ | ⟨-, rfl⟩⟩ := execLdspr_next h
  · exact .entered hg hcfg
  · exact .register s.bank ..

theorem completes_execPmir {n : Byte} (h : execPmir n s = .next t) : Completes s (.pmir n) t := by
  obtain ⟨hg, hcfg⟩ | rfl | ⟨-, hn, rfl | rfl⟩ := execPmir_next h
  · exact .entered hg hcfg
  · exact .jump _
  · exact .level rfl n hn _
  · exact .level rfl n hn _

theorem completes_execPmd {n : Byte} (h : execPmd n s = .next t) : Completes s (.pmd n) t := by
  obtain ⟨hg, hcfg⟩ | rfl | ⟨-, hn, rfl⟩ := execPmd_next h
  · exact .entered hg hcfg
  · exact .jump _
  · exact .level rfl n hn _

/-- Every instruction that answers `next` leaves one of these states. -/
theorem completes_of_exec (h : exec i s = .next t) : Completes s i t := by
  cases i with
  | add | sub | addi | subi =>
    obtain rfl := next_inj.1 h
    exact completes_finishArith rfl ..
  | addu | subu | addui | subui =>
    obtain rfl := next_inj.1 h
    exact completes_finishKeepOV rfl ..
  | not | and | or | xor | comp | noti | andi | ori | xori | sali | sari | slli | slri | compi =>
    obtain rfl := next_inj.1 h
    exact completes_finishFreeOV rfl ..
  | sal | sar | sll | slr => exact completes_shiftByReg rfl h
  | lw | lh | lth | lb => exact completes_loadFrom rfl h
  | sw | sh | sth | sb => exact completes_storeTo rfl h
  | li | lui | lni | luni =>
    obtain rfl := loadImm_next h
    exact .register .user ..
  | lsi | lusi | lnsi | lunsi =>
    obtain rfl := loadImm_next h
    exact .register .sys ..
  | lgi | lugi | lngi | lungi =>
    obtain rfl := loadImm_next h
    exact .global rfl ..
  | beq | bne | bgt | blt => exact completes_branchIf h
  | j | jr | sync =>
    obtain rfl := next_inj.1 h
    exact .jump _
  | jal | jrl =>
    obtain rfl := next_inj.1 h
    exact .register s.bank ..
  | syscall => exact completes_execSyscall h
  | sysret =>
    obtain ⟨-, rfl⟩ := execSysret_next h
    exact .sysret ⟨rfl, rfl⟩
  | stspr => exact completes_execStspr h
  | ldspr => exact completes_execLdspr h
  | lock =>
    obtain ⟨_, -, rfl⟩ := execLock_next h
    exact .register s.bank ..
  | test =>
    obtain ⟨_, -, rfl⟩ := execTest_next h
    exact .register s.bank ..
  | pmir => exact completes_execPmir h
  | pmd => exact completes_execPmd h

/-! ## The model arguments -/

theorem Completes.cfg_eq (h : Completes s i t) : t.cfg = s.cfg := by
  cases h with
  | entered _ hcfg => exact hcfg
  | syscall => rw [enterSysCall_eq]
  | sysret => rw [returnFromSysCall_eq]
  | _ => simp

/-! ## The level and the bank -/

theorem Completes.statPml_eq (h : Completes s i t) (hx : s.cfg.excEntryGiven = false) (hi : changesLevel i = false) :
    t.statPml = s.statPml := by
  cases h with
  | entered hg => simp [hx] at hg
  | level hl | syscall hl | sysret hl => simp [hi] at hl
  | _ => simp

theorem Completes.bank_eq (h : Completes s i t) (hx : s.cfg.excEntryGiven = false) (hi : changesBank i = false) :
    t.bank = s.bank := by
  cases h with
  | entered hg => simp [hx] at hg
  | syscall hl | sysret hl => simp [hi] at hl
  | _ => simp

/-! ## Who writes what -/

theorem Completes.imem_eq (h : Completes s i t) (hx : s.cfg.excEntryGiven = false) : t.imem = s.imem := by
  cases h with
  | entered hg => simp [hx] at hg
  | syscall => rw [enterSysCall_eq]
  | sysret => rw [returnFromSysCall_eq]
  | _ => simp

theorem Completes.dmem_eq (h : Completes s i t) (hx : s.cfg.excEntryGiven = false) (hi : isStore i = false) :
    t.dmem = s.dmem := by
  cases h with
  | entered hg => simp [hx] at hg
  | store hl => simp [hi] at hl
  | syscall => rw [enterSysCall_eq]
  | sysret => rw [returnFromSysCall_eq]
  | _ => simp

theorem Completes.device_eq (h : Completes s i t) (hx : s.cfg.excEntryGiven = false) (hstore : isStore i = false)
    (hload : isLoad i = false) : t.device = s.device := by
  cases h with
  | entered hg => simp [hx] at hg
  | load hl => simp [hload] at hl
  | store hl => simp [hstore] at hl
  | syscall => rw [enterSysCall_eq]
  | sysret => rw [returnFromSysCall_eq]
  | _ => simp

theorem Completes.glbregf_eq (h : Completes s i t) (hx : s.cfg.excEntryGiven = false) (hi : writesGlobals i = false) :
    t.glbregf = s.glbregf := by
  cases h with
  | entered hg => simp [hx] at hg
  | global hl => simp [hi] at hl
  | syscall => rw [enterSysCall_eq]
  | sysret => rw [returnFromSysCall_eq]
  | _ => simp

theorem Completes.sameFlags (h : Completes s i t) (hx : s.cfg.excEntryGiven = false) (hi : writesFlags i = false) :
    SameFlags s t := by
  cases h with
  | entered hg => simp [hx] at hg
  | alu hl => simp [hi] at hl
  | syscall => rw [enterSysCall_eq]; exact ⟨rfl, rfl⟩
  | sysret => rw [returnFromSysCall_eq]; exact ⟨rfl, rfl⟩
  | _ => simp [SameFlags]

/-! ## The invariant -/

/-- The level of a valid request exists on the machine. -/
theorem levelExists_of_validLevel {c : Config} {n : Byte} (h : validLevel c n = true) :
    levelExists c (n.setWidth 3) = true := by
  simp only [validLevel, levelExists, Bool.and_eq_true, decide_eq_true_eq] at h ⊢
  obtain ⟨⟨hseven, hsix⟩, htop⟩ := h
  have hsame : (n.setWidth 3).toNat = n.toNat := by
    rw [BitVec.toNat_setWidth]
    exact Nat.mod_eq_of_lt (by omega)
  refine ⟨fun heq => hsix ?_, hsame ▸ htop⟩
  rw [← hsame, heq]
  rfl

theorem levelExists_iff {c : Config} {p : BitVec 3} :
    levelExists c p = true ↔ p ≠ 0b110 ∧ p.toNat ≤ c.maxPml.code.toNat := by
  simp [levelExists]

/-- A write leaves register 0's storage alone: to register 0 it is discarded (10_state.md R23). -/
theorem fileGet_zero_fileSet (f : RegFile) {i : RegIx} (v : Word) (hi : i ≠ 0) : fileGet (fileSet f i v) 0 = fileGet f 0 := by
  rw [fileGet_fileSet, if_neg hi.symm]

theorem inv_writeBank (hs : Inv s) (b : Bank) (i : RegIx) (v : Word) : Inv (writeBank b i v s) := by
  unfold writeBank
  split
  · exact hs
  · split
    · exact { hs with zeroGp := (fileGet_zero_fileSet _ _ ‹_›).trans hs.zeroGp }
    · exact { hs with zeroSys := (fileGet_zero_fileSet _ _ ‹_›).trans hs.zeroSys }

/-- A write of UINTEN clears the NA bit (10_state.md R54); no other register write reaches what the invariant speaks of. -/
theorem inv_writeSpr (hs : Inv s) (r : Spr) (v : Word) : Inv (writeSpr r v s) := by
  cases r with
  | uinten => exact { hs with naBit := by simp [writeSpr, clearNaBit] }
  | supv r => cases r <;> exact { hs with }
  | _ => exact { hs with }

theorem inv_setLevel (hs : Inv s) {p : BitVec 3} (hp : levelExists s.cfg p = true) : Inv (setLevel p s) := by
  obtain ⟨hsix, htop⟩ := levelExists_iff.1 hp
  unfold setLevel
  split
  · exact { hs with level := hsix, levelBound := fun _ => htop }
  · exact hs

/-- The level as it reads exists where the levels are implemented, and is not the reserved one in any case. -/
theorem levelExists_level_of_inv (hs : Inv s) (himpl : s.cfg.pmlImplemented = true) : levelExists s.cfg (level s) = true := by
  rw [level, if_pos himpl, levelExists_iff]
  exact ⟨hs.level, hs.levelBound himpl⟩

theorem level_ne_reserved_of_inv (hs : Inv s) : level s ≠ 0b110 := by
  unfold level
  split
  · exact hs.level
  · decide

theorem levelExists_routineLevel_of_inv (hs : Inv s) (himpl : s.cfg.pmlImplemented = true) (e : SysCallEntry) :
    levelExists s.cfg (routineLevel e s) = true := by
  obtain hsame | ⟨-, hexists⟩ := routineLevel_cases e s
  · rw [hsame]
    exact levelExists_level_of_inv hs himpl
  · exact hexists

theorem inv_enterSysCall (hs : Inv s) (e : SysCallEntry) : Inv (enterSysCall e s) := by
  rw [enterSysCall_eq]
  cases himpl : s.cfg.pmlImplemented with
  | false =>
    exact { hs with savedLevel := level_ne_reserved_of_inv hs, savedBound := fun h => absurd (himpl.symm.trans h) (by decide) }
  | true =>
    obtain ⟨hsix, htop⟩ := levelExists_iff.1 (levelExists_routineLevel_of_inv hs himpl e)
    exact { hs with
      level := hsix, levelBound := fun _ => htop
      savedLevel := level_ne_reserved_of_inv hs
      savedBound := fun _ => (levelExists_iff.1 (levelExists_level_of_inv hs himpl)).2 }

theorem inv_returnFromSysCall (hs : Inv s) : Inv (returnFromSysCall s) := by
  rw [returnFromSysCall_eq]
  cases himpl : s.cfg.pmlImplemented with
  | false => exact { hs with }
  | true => exact { hs with level := hs.savedLevel, levelBound := hs.savedBound }

theorem inv_runCoProc (hs : Inv s) (w : Word) : Inv (runCoProc w s) :=
  { hs with dmem := memWf_storeBytes _ _ hs.dmem }

theorem Completes.inv (h : Completes s i t) (hs : Inv s) : Inv t := by
  cases h with
  | alu _ rd r => exact { inv_writeBank hs s.bank rd r with }
  | register b rd r => exact { inv_writeBank hs b rd r with }
  | global => exact { hs with }
  | load _ rd r => exact { inv_writeBank hs s.bank rd r with }
  | store => exact { hs with dmem := memWf_storeValue _ _ _ _ hs.dmem }
  | jump => exact { hs with }
  | spr r v => exact { inv_writeSpr hs r v with }
  | level _ n hn => exact { inv_setLevel hs (levelExists_of_validLevel hn) with }
  | syscall _ e => exact inv_enterSysCall hs e
  | sysret => exact inv_returnFromSysCall hs
  | entered hg => simp [hs.noEntries] at hg

/-! ## Exceptions -/

/-- What an instruction that raises an exception leaves: ECODE, and, in a system call refused for its level, PEMA. -/
inductive Raises (s : State) (i : Instr) : ExcCode → State → Prop
  | plain {x : ExcCode} (hi : mayRaise i x = true) (draws : Nat) : Raises s i x (recordException x { s with draws := draws })
  | refusedCall {n : Byte} (hi : i = .syscall n) : Raises s i .insfpem (recordException .insfpem (setPema false s))

theorem raise_exception {u : State} {y : ExcCode} (h : raise y u = .fault (.exception x t)) :
    x = y ∧ t = recordException y u := by
  obtain ⟨-, heq⟩ := raise_fault h
  cases heq
  exact ⟨rfl, rfl⟩

theorem raises_of_raise {y : ExcCode} (hi : mayRaise i y = true) (h : raise y s = .fault (.exception x t)) :
    Raises s i x t := by
  obtain ⟨rfl, rfl⟩ := raise_exception h
  exact .plain hi s.draws

/-- An access of 1 or 3 bytes is never misaligned (20_memory.md R81). -/
theorem width_of_misaligned {c : Config} {a : Word} {n : Nat} (h : misaligned c a n = true) : n = 4 ∨ n = 2 := by
  by_contra hn
  have hfalse : misaligned c a n = false :=
    (misaligned_eq_false_iff c a n).2 fun _ => ⟨fun h4 => absurd (.inl h4) hn, fun h2 => absurd (.inr h2) hn⟩
  simp [hfalse] at h

theorem raises_loadFrom {n : Nat} (hi : n = 4 ∨ n = 2 → mayRaise i .misaddr = true) {rd rsa : RegIx} {imm : BitVec 14}
    (h : loadFrom n rd rsa imm s = .fault (.exception x t)) : Raises s i x t := by
  simp only [loadFrom] at h
  split at h
  · exact raises_of_raise (hi (width_of_misaligned ‹_›)) h
  · split at h <;> cases h

theorem raises_storeTo {n : Nat} (hi : n = 4 ∨ n = 2 → mayRaise i .misaddr = true) {rsb rsa : RegIx} {imm : BitVec 14}
    (h : storeTo n rsb rsa imm s = .fault (.exception x t)) : Raises s i x t := by
  simp only [storeTo] at h
  split at h
  · exact raises_of_raise (hi (width_of_misaligned ‹_›)) h
  · split at h <;> cases h

theorem raises_execSyscall {n : Byte} (h : execSyscall n s = .fault (.exception x t)) : Raises s (.syscall n) x t := by
  unfold execSyscall at h
  split at h
  · cases h
  split at h
  · cases h
  split at h
  · exact raises_of_raise rfl h
  split at h
  · exact raises_of_raise rfl h
  split at h
  · obtain ⟨rfl, rfl⟩ := raise_exception h
    exact .refusedCall rfl
  · cases h

theorem raises_execStspr {rsa : RegIx} {a : Byte} (h : execStspr rsa a s = .fault (.exception x t)) :
    Raises s (.stspr rsa a) x t := by
  unfold execStspr at h
  split at h
  · cases h
  split at h
  · cases h
  split at h
  · exact raises_of_raise rfl h
  · cases h

theorem raises_execLdspr {rd : RegIx} {a : Byte} (h : execLdspr rd a s = .fault (.exception x t)) :
    Raises s (.ldspr rd a) x t := by
  unfold execLdspr at h
  split at h
  · cases h
  split at h
  · exact raises_of_raise rfl h
  · cases h

theorem raises_execPmir {n : Byte} (h : execPmir n s = .fault (.exception x t)) : Raises s (.pmir n) x t := by
  unfold execPmir at h
  split at h
  · cases h
  split at h
  · exact raises_of_raise rfl h
  split at h
  · cases h
  split at h
  · split at h
    · cases h
    · exact raises_of_raise rfl h
  · split at h
    · cases h
    · obtain ⟨rfl, rfl⟩ := raise_exception h
      exact .plain rfl _

theorem raises_execPmd {n : Byte} (h : execPmd n s = .fault (.exception x t)) : Raises s (.pmd n) x t := by
  unfold execPmd at h
  split at h
  · cases h
  split at h
  · exact raises_of_raise rfl h
  · cases h

theorem shiftByReg_ne_fault {op : ShiftOp} {rd rsa rsb : RegIx} {shft : BitVec 7} {f : Fault} :
    shiftByReg op rd rsa rsb shft s ≠ .fault f := by
  unfold shiftByReg
  split <;> simp

/-- Only loads, stores and system instructions can raise an exception. -/
theorem raises_of_exec (h : exec i s = .fault (.exception x t)) : Raises s i x t := by
  cases i with
  | lw | lh => exact raises_loadFrom (fun _ => rfl) h
  | lth | lb => exact raises_loadFrom (by simp) h
  | sw | sh => exact raises_storeTo (fun _ => rfl) h
  | sth | sb => exact raises_storeTo (by simp) h
  | syscall => exact raises_execSyscall h
  | stspr => exact raises_execStspr h
  | ldspr => exact raises_execLdspr h
  | pmir => exact raises_execPmir h
  | pmd => exact raises_execPmd h
  | sal | sar | sll | slr => exact absurd h shiftByReg_ne_fault
  | sysret => simp only [exec, execSysret] at h; split at h <;> cases h
  | lock => simp only [exec, execLock] at h; split at h <;> cases h
  | test => simp only [exec, execTest] at h; split at h <;> cases h
  | _ => cases h

theorem ecode_of_exception (x : ExcCode) : ((excNumber x).setWidth 8).toNat = (excNumber x).toNat := by
  cases x <;> rfl

end Shapes

/-! ## The statements -/

/-- Settles O58 (it holds): an instruction keeps the invariant whichever update it makes, a claimed co-processor word stores
canonically, and there are no entries. -/
theorem stepKeepsTheInvariant : Obligations.StepKeepsTheInvariant := by
  intro s t hs h
  obtain ⟨i, hi⟩ | ⟨w, rfl⟩ | ⟨hg, -⟩ := step_next h
  · exact (completes_of_exec hi).inv hs
  · exact inv_runCoProc hs w
  · simp [hs.noEntries] at hg

/-- Settles O59 (it holds): one field of the invariant each. -/
theorem resetMeetsTheInvariant : Obligations.ResetMeetsTheInvariant where
  noEntries := ⟨rfl, rfl⟩
  imem := (memWf_resetWith defaultConfig).1
  dmem := (memWf_resetWith defaultConfig).2
  level := by decide
  savedLevel := by decide
  levelBound := fun _ => le_rfl
  savedBound := by decide
  naBit := rfl
  zeroGp := by decide
  zeroSys := by decide

/-- Settles O57 (it holds): every update an instruction makes keeps them. -/
theorem stepKeepsTheModelArguments : Obligations.StepKeepsTheModelArguments := by
  intro s t h
  obtain ⟨i, hi⟩ | ⟨w, rfl⟩ | ⟨-, hcfg⟩ := step_next h
  · exact (completes_of_exec hi).cfg_eq
  · rfl
  · exact hcfg

/-- Settles O55 (it holds): read off the list of updates an instruction can make. -/
theorem levelAndBankChangeOnlyByTheirInstructions : Obligations.LevelAndBankChangeOnlyByTheirInstructions := by
  intro i s t h hx
  have hc := completes_of_exec h
  exact ⟨fun hi => ⟨hc.statPml_eq hx hi, level_congr hc.cfg_eq (hc.statPml_eq hx hi)⟩, hc.bank_eq hx⟩

/-- Settles O56 (it holds): read off the list of updates an instruction can make. -/
theorem onlyTheNamedFamiliesWrite : Obligations.OnlyTheNamedFamiliesWrite := by
  intro i s t h hx
  have hc := completes_of_exec h
  exact ⟨hc.imem_eq hx, hc.dmem_eq hx, hc.device_eq hx, hc.glbregf_eq hx, hc.sameFlags hx⟩

/-- Settles O54 (it holds): an instruction raises from its own state, or from the one a refused call leaves. -/
theorem exceptionsArePrecise : Obligations.ExceptionsArePrecise := by
  intro i s t x h
  cases raises_of_exec h with
  | plain hi => exact ⟨rfl, ecode_of_exception x, hi, .inl rfl⟩
  | refusedCall hi =>
    subst hi
    exact ⟨by rw [setPema_eq]; rfl, rfl, rfl, .inr ⟨_, rfl, rfl⟩⟩

/-- Settles O52 (it holds): no instruction changes the model arguments, so that the levels stay unimplemented. -/
theorem withoutPermissionLevels : Obligations.WithoutPermissionLevels := by
  intro s t himpl
  refine ⟨level_of_not_implemented himpl, pema_of_not_implemented himpl, ?_, ?_, fun i u h => ?_⟩
  · exact if_pos himpl
  · exact if_pos himpl
  · have hu : u.cfg.pmlImplemented = false := (completes_of_exec h).cfg_eq ▸ himpl
    exact ⟨level_of_not_implemented hu, pema_of_not_implemented hu⟩

end Sys2Proof.Machine

/-! PROOFS. The order of a step (00_scope.md R11, 60_exceptions.md R318): which interrupt waits and is taken, what a fetch gives, and
what the step then does; with them the two banks and the state after reset. -/

namespace Sys2Proof.Machine

section Step

variable {s : State}

/-! ## The branches of a step -/

theorem step_of_recognised {v : IntVec} (h : recognised s = some v) : step s = takeInterrupt v s := by
  simp only [step, cycle, h]

theorem step_of_aligned (h : recognised s = none) (hpc : s.pc.toNat % 4 = 0) : step s = fetchAndPerform s := by
  simp only [step, cycle, h, (pcAligned_iff s.pc).2 hpc, if_true]

theorem step_of_misaligned (h : recognised s = none) (hpc : s.pc.toNat % 4 ≠ 0) : step s = raise .misaddr s := by
  simp only [step, cycle, h, if_neg (mt (pcAligned_iff s.pc).1 hpc)]

theorem fetchAndPerform_of_bytes {b0 b1 b2 b3 : Byte} (h : fetchBytes s s.pc = .bytes b0 b1 b2 b3) :
    fetchAndPerform s = perform (decodeBytes s.cfg.opMap [b0, b1, b2, b3]) s := by
  simp only [fetchAndPerform, h]

theorem step_of_decoded {b0 b1 b2 b3 : Byte} {i : Instr} (h : recognised s = none) (hpc : s.pc.toNat % 4 = 0)
    (hfetch : fetchBytes s s.pc = .bytes b0 b1 b2 b3) (hi : decodeBytes s.cfg.opMap [b0, b1, b2, b3] = .instr i) :
    step s = exec i s := by
  rw [step_of_aligned h hpc, fetchAndPerform_of_bytes hfetch, hi, perform]

/-! ## The fetch (20_memory.md R75, R85, R90) -/

theorem storedToCode_of_stored {a : Word} (hunified : s.cfg.unifiedMemory = true)
    (h : ∃ k < 4, memRead s.dmem (a + BitVec.ofNat 32 k).toNat ≠ none) : storedToCode s a = true := by
  obtain ⟨k, hk, hstored⟩ := h
  rw [← Option.isSome_iff_ne_none] at hstored
  simp only [storedToCode, hunified, Bool.true_and, Bool.or_eq_true]
  interval_cases k
  · exact .inl (.inl (.inl (by simpa using hstored)))
  · exact .inl (.inl (.inr hstored))
  · exact .inl (.inr hstored)
  · exact .inr hstored

theorem fetchBytes_of_unmapped {a : Word} (h : allMapped s.cfg.iMemMap a 4 = false) : fetchBytes s a = .stuck a :=
  if_pos h

theorem fetchBytes_of_stored {a : Word} (hmapped : allMapped s.cfg.iMemMap a 4 = true) (h : storedToCode s a = true) :
    fetchBytes s a = .fromStored a := by
  simp [fetchBytes, hmapped, h]

/-- The bytes of a word are the word again (R74, R75). -/
theorem wordOfBytes_bytes (w : Word) :
    wordOfBytes (w.extractLsb' 24 8) (w.extractLsb' 16 8) (w.extractLsb' 8 8) (w.extractLsb' 0 8) = w := by
  apply BitVec.eq_of_getLsbD_eq
  intro i hi
  simp only [wordOfBytes, BitVec.getLsbD_append, BitVec.getLsbD_extractLsb']
  interval_cases i <;> simp

/-- A word placed at the pc is what a machine with two memory spaces fetches there. -/
theorem fetchBytes_loadWordAtPc (w : Word) (htwo : s.cfg.unifiedMemory = false)
    (hmapped : allMapped s.cfg.iMemMap s.pc 4 = true) :
    fetchBytes (loadWordAtPc w s) s.pc =
      .bytes (w.extractLsb' 24 8) (w.extractLsb' 16 8) (w.extractLsb' 8 8) (w.extractLsb' 0 8) := by
  have hstored : storedToCode (loadWordAtPc w s) s.pc = false := by simp [storedToCode, htwo]
  have h2 : s.pc + 2 = s.pc + 1 + 1 := by rw [BitVec.add_assoc]; rfl
  have h3 : s.pc + 3 = s.pc + 1 + 1 + 1 := by simp only [BitVec.add_assoc]; rfl
  have hdistinct : s.pc ≠ s.pc + 1 ∧ s.pc ≠ s.pc + 1 + 1 ∧ s.pc ≠ s.pc + 1 + 1 + 1 ∧
      s.pc + 1 ≠ s.pc + 1 + 1 ∧ s.pc + 1 ≠ s.pc + 1 + 1 + 1 ∧ s.pc + 1 + 1 ≠ s.pc + 1 + 1 + 1 := by bv_omega
  simp only [fetchBytes, loadWordAtPc_cfg, hmapped, hstored, loadWordAtPc_imem, bytesOfWord, placeBytes, memRead_memWrite,
    BitVec.toNat_inj, h2, h3, hdistinct, if_true, if_false, Bool.true_eq_false, Bool.false_eq_true]

/-- Loading a word changes nothing the recognition of an interrupt looks at. -/
theorem recognised_loadWordAtPc (w : Word) : recognised (loadWordAtPc w s) = recognised s := rfl

/-! ## The interrupt that is taken (60_exceptions.md R312, R318) -/

theorem waiting_iff_mem_recognisable {v : IntVec} : Waiting s v ↔ v ∈ recognisable s := by
  rw [mem_recognisable, Waiting, intEnabled, Bool.and_eq_true]
  cases v with
  | cpmi => simp [Pending]
  | roi => simp [Pending, and_comm]
  | extra e => simp [Pending]; tauto

theorem not_pending_clearPending (u : IntVec) (s : State) : ¬ Pending (clearPending u s) u := by
  cases u <;> simp [Pending, clearPending]

theorem pending_clearPending_of_ne {u w : IntVec} (hne : w ≠ u)
    (haddr : ∀ e e', u = .extra e → w = .extra e' → e'.address ≠ e.address) :
    Pending (clearPending u s) w ↔ Pending s w := by
  cases u with
  | cpmi => rfl
  | roi =>
    cases w with
    | roi => exact absurd rfl hne
    | _ => rfl
  | extra e =>
    cases w with
    | extra e' => simp [Pending, clearPending, haddr e e' rfl rfl]
    | _ => rfl

theorem not_pending_enterInterrupt (u : IntVec) (s : State) : ¬ Pending (enterInterrupt u s) u := by
  cases u <;> simp [Pending, enterInterrupt, clearPending]

theorem clearPending_eq (u : IntVec) (s : State) :
    clearPending u s =
      { s with roiPending := (clearPending u s).roiPending, extraPending := (clearPending u s).extraPending } := by
  cases u <;> rfl

theorem recognised_eq_none (h : ∀ v, ¬ Waiting s v) : recognised s = none :=
  recognised_eq_none_iff.2 fun v hv => h v (waiting_iff_mem_recognisable.2 hv)

theorem exists_recognised {v : IntVec} (h : Waiting s v) :
    ∃ u, recognised s = some u ∧ Waiting s u ∧ ∀ w, Waiting s w → (vectorAddress u).toNat ≤ (vectorAddress w).toNat := by
  cases hr : recognised s with
  | none => exact absurd (waiting_iff_mem_recognisable.1 h) (recognised_eq_none_iff.1 hr v)
  | some u =>
    obtain ⟨hu, hlowest⟩ := recognised_eq_some hr
    exact ⟨u, rfl, waiting_iff_mem_recognisable.2 hu, fun w hw => hlowest w (waiting_iff_mem_recognisable.1 hw)⟩

/-- On a machine with no extra vectors only ROI can wait (R316 bars CPMI). -/
theorem eq_roi_of_waiting (hnone : s.cfg.extraVectors = []) {v : IntVec} (h : Waiting s v) : v = .roi := by
  obtain ⟨hpending, -, -, hvectors⟩ := h
  cases v with
  | cpmi => exact hpending.elim
  | roi => rfl
  | extra e => simpa [hnone] using hvectors e rfl

theorem recognised_roi (hnone : s.cfg.extraVectors = []) (hroi : s.roiPending = true) (hgine : s.statGine = true)
    (hbit : s.uinten.getLsbD s.cfg.uintenRoiBit.toNat = true) : recognised s = some .roi := by
  obtain ⟨u, hu, hwaiting, -⟩ := exists_recognised (s := s) (v := .roi) ⟨hroi, hgine, hbit, nofun⟩
  rw [hu, eq_roi_of_waiting hnone hwaiting]

end Step

/-! ## The statements -/

/-- Settles O7 (it holds): the fetch gives the placed word, and the round trip its instruction. -/
theorem loadedWordRuns : Obligations.LoadedWordRuns := by
  intro s i henc hnone hpc htwo hmapped
  have hdecoded : decodeWord s.cfg.opMap (encode s.cfg.opMap i) = .instr i := decodeWord_encode _ _ henc
  refine step_of_decoded hnone hpc (fetchBytes_loadWordAtPc _ htwo hmapped) ?_
  rw [decodeBytes, wordOfBytes_bytes, loadWordAtPc_cfg, hdecoded]

/-- Settles O8 (it holds): the interrupt that is recognised waits, at the lowest vector. -/
theorem pendingRoiIsTakenFirst : Obligations.PendingRoiIsTakenFirst := by
  intro s
  refine ⟨fun v hv => ?_, recognised_eq_none, fun hnone => ⟨fun hentry hroi hgine hbit => ?_,
    fun hentry hroi hgine hbit => ?_, fun hoff => ?_⟩⟩
  · obtain ⟨u, hu, hwaiting, hlowest⟩ := exists_recognised hv
    refine ⟨u, hwaiting, hlowest, fun hentry => ⟨clearPending u s, ?_, not_pending_clearPending u s,
      fun w hne haddr => pending_clearPending_of_ne hne haddr, clearPending_eq u s⟩,
      fun hentry => ⟨enterInterrupt u s, ?_, rfl, not_pending_enterInterrupt u s, rfl⟩⟩
    · rw [step_of_recognised hu, takeInterrupt_eq_fault u hentry]
    · rw [step_of_recognised hu, takeInterrupt_eq_next u hentry]
  · rw [step_of_recognised (recognised_roi hnone hroi hgine hbit), takeInterrupt_eq_fault _ hentry]
    rfl
  · rw [step_of_recognised (recognised_roi hnone hroi hgine hbit), takeInterrupt_eq_next _ hentry]
    exact ⟨_, rfl, rfl, rfl, rfl⟩
  · refine recognised_eq_none fun v hv => ?_
    obtain rfl := eq_roi_of_waiting hnone hv
    obtain ⟨-, hgine, hbit, -⟩ := hv
    rcases hoff with hoff | hoff
    · exact absurd hgine (by simp [hoff])
    · exact absurd hbit (by simp [enableBit, hoff])

/-- Settles O10 (it holds): what a write to a bank changes, read at either bank. -/
theorem banksShareOnlySharedRegisters : Obligations.BanksShareOnlySharedRegisters := by
  intro s b i v
  obtain ⟨hsame, hother, -⟩ := regWritten_writeBank s b i v
  exact ⟨readBank_zero b s, writeBank_zero b v s, regWritten_writeBank s b i v, fun hi => hsame b i hi ⟨rfl, .inl rfl⟩,
    fun hi b' hb' j => hother b' j (.inr fun ⟨_, hshared⟩ => hshared.elim hb' hi)⟩

/-- Settles O6 (it holds): one case per answer of the fetch. -/
theorem stepRunsDecodedInstruction : Obligations.StepRunsDecodedInstruction := by
  intro s hnone hpc
  have hstep := step_of_aligned hnone hpc
  refine ⟨fun b0 b1 b2 b3 hfetch => ?_, fun hunmapped => ?_, fun hmapped hunified hstored => ?_, fun hfetch => ?_⟩
  · rw [hstep, fetchAndPerform_of_bytes hfetch]
    exact ⟨fun i hi => by rw [hi]; rfl, fun op w hw => by rw [hw]; rfl, fun why hwhy => by rw [hwhy]; rfl⟩
  · rw [hstep, fetchAndPerform, fetchBytes_of_unmapped hunmapped]
  · rw [hstep, fetchAndPerform, fetchBytes_of_stored hmapped (storedToCode_of_stored hunified hstored)]
  · rw [hstep, fetchAndPerform, hfetch]

/-- Settles O9 (it holds): the pc is tested before the fetch. -/
theorem misalignedPcRaisesMisaddr : Obligations.MisalignedPcRaisesMisaddr := by
  intro s hnone hpc hx
  rw [step_of_misaligned hnone hpc, raise_eq_fault _ hx]
  rfl

/-- Settles O60 (it holds): with GINE clear nothing waits. -/
theorem resetValues : Obligations.ResetValues := fun c =>
  have hnone : recognised (State.resetWith c) = none := recognised_eq_none fun _ ⟨_, hgine, _, _⟩ => nomatch hgine
  ⟨rfl, rfl, rfl, rfl, rfl, rfl, rfl, rfl, rfl, hnone⟩

end Sys2Proof.Machine

/-! PROOFS. The integer and immediate families (40_integer.md, 41_immediate.md): the effect of the endings that write OV, the values
of the operand forms, then each instruction. -/

namespace Sys2Proof.Machine

/-! ## The effect of the other two endings (40_integer.md R140, 60_exceptions.md R314)

OV and ROI's pending bit are no part of the common effect, so it is that of `finishKeepOV`. -/

theorem aluEffect_finishArith (s : State) (rd : RegIx) (r : Word) (ov : Bool) :
    AluEffect s (finishArith rd r ov s) rd r :=
  aluEffect_finishKeepOV s rd r

theorem aluEffect_finishFreeOV (s : State) (rd : RegIx) (r : Word) : AluEffect s (finishFreeOV rd r s) rd r :=
  aluEffect_finishKeepOV s rd r

section Endings

variable {i : Instr} {s : State} {rd : RegIx} {r : Word} {p : Word → Prop}

/-- What an instruction with the ending that writes OV does: `c` says when the carry or borrow is there. -/
theorem exists_effect_of_finishArith {c : Prop} [Decidable c] (hexec : exec i s = .next (finishArith rd r (decide c) s))
    (hr : p r) :
    ∃ t r, exec i s = .next t ∧ AluEffect s t rd r ∧ p r ∧ t.statOV = .known (decide c) ∧
      t.roiPending = (s.roiPending || decide c) :=
  ⟨_, r, hexec, aluEffect_finishArith s rd r _, hr, finishArith_statOV .., finishArith_roiPending ..⟩

/-- What an instruction with the ending that leaves OV to `OV_NONARITH` does. -/
theorem exists_effect_of_finishFreeOV (hexec : exec i s = .next (finishFreeOV rd r s)) (hr : p r) :
    ∃ t r, exec i s = .next t ∧ AluEffect s t rd r ∧ p r ∧ t.statOV = s.cfg.ovNonArith ∧ t.roiPending = s.roiPending :=
  ⟨_, r, hexec, aluEffect_finishFreeOV s rd r, hr, finishFreeOV_statOV .., finishFreeOV_roiPending ..⟩

end Endings

/-! ## The operand forms -/

/-- An extended immediate is what the parameter says (30_encoding.md R111). -/
theorem extendsTo_extend (e : ImmExt) {n : Nat} (hn : n ≤ 32) (v : BitVec n) : ExtendsTo e v (extend e v) := by
  cases e with
  | sign => exact toInt_extend_sign hn v
  | zero => exact toNat_extend_zero hn v

/-- A shift out of the word is the exact shift too: nothing is left but the fill. -/
theorem shiftOut_eq_shiftExact (op : ShiftOp) (a : Word) {n : Nat} (hn : 32 ≤ n) : shiftOut op a = shiftExact op a n := by
  cases op with
  | sal | sll => exact (BitVec.shiftLeft_eq_zero hn).symm
  | slr => exact (BitVec.ushiftRight_eq_zero hn).symm
  | sar =>
    ext i hi
    have hfill : ¬ n + i < 32 := by omega
    cases hmsb : a.msb <;> simp [-BitVec.reduceAllOnes, shiftOut, shiftExact, BitVec.getElem_sshiftRight, hfill, hmsb]

/-- In range a shift is the exact one (40_integer.md R141). -/
theorem shiftResult_eq_shiftExact {c : Config} {n : Nat} (h : n < 32 ∨ c.shiftOver = .mathematical) (op : ShiftOp) (a : Word) :
    shiftResult c op a n = shiftExact op a n := by
  by_cases hn : n < 32
  · exact shiftResult_of_lt c op a hn
  · simp [shiftResult, hn, h.resolve_left hn, shiftOut_eq_shiftExact op a (not_lt.1 hn)]

section Shifts

variable {c : Config} {n : Nat} (h : n < 32 ∨ c.shiftOver = .mathematical) (a : Word)

include h

theorem toNat_shiftResult_sal : (shiftResult c .sal a n).toNat = a.toNat * 2 ^ n % 2 ^ 32 := by
  rw [shiftResult_eq_shiftExact h, shiftExact, BitVec.toNat_shiftLeft, Nat.shiftLeft_eq]

theorem toNat_shiftResult_sll : (shiftResult c .sll a n).toNat = a.toNat * 2 ^ n % 2 ^ 32 := by
  rw [shiftResult_eq_shiftExact h, shiftExact, BitVec.toNat_shiftLeft, Nat.shiftLeft_eq]

theorem toNat_shiftResult_slr : (shiftResult c .slr a n).toNat = a.toNat / 2 ^ n := by
  rw [shiftResult_eq_shiftExact h, shiftExact, BitVec.toNat_ushiftRight, Nat.shiftRight_eq_div_pow]

theorem toInt_shiftResult_sar : (shiftResult c .sar a n).toInt = a.toInt / 2 ^ n := by
  rw [shiftResult_eq_shiftExact h, shiftExact, BitVec.toInt_sshiftRight, Int.shiftRight_eq_div_pow]
  simp

end Shifts

/-- comp and compi give the sign of the difference of the operands, read by `f` as the order reads them (40_integer.md R152). -/
theorem toInt_compResult {c : Config} {a b : Word} (f : Word → Int) (hinj : f a = f b → a = b)
    (horder : greater c a b = true ↔ f b < f a) : (compResult c a b).toInt = (f a - f b).sign := by
  unfold compResult
  split
  · simp [*]
  · split
    · have hpos : 0 < f a - f b := by have := horder.1 ‹_›; omega
      rw [Int.sign_eq_one_of_pos hpos]
      rfl
    · have hneg : f a - f b < 0 := by
        have hne : f a ≠ f b := mt hinj ‹_›
        have hle : ¬ f b < f a := mt horder.2 ‹_›
        omega
      rw [Int.sign_eq_neg_one_of_neg hneg]
      rfl

theorem toInt_compResult_signed {c : Config} (h : c.cmpSigned = true) (a b : Word) :
    (compResult c a b).toInt = (a.toInt - b.toInt).sign :=
  toInt_compResult BitVec.toInt (BitVec.toInt_inj.1) (by simp [greater_iff, h])

theorem toInt_compResult_unsigned {c : Config} (h : c.cmpSigned = false) (a b : Word) :
    (compResult c a b).toInt = (a.toNat - b.toNat : Int).sign :=
  toInt_compResult (fun w => (w.toNat : Int)) (fun heq => BitVec.eq_of_toNat_eq (Int.ofNat_inj.1 heq))
    (by simp [greater_iff, h])

/-! ## The statements -/

/-- Settles O11 (it holds): the carry or borrow and the result are those of the natural numbers. -/
theorem addAndSub : Obligations.AddAndSub := fun _ _ _ _ =>
  ⟨exists_effect_of_finishArith rfl (BitVec.toNat_add _ _), exists_effect_of_finishArith rfl (toNat_sub_eq_emod _ _)⟩

/-- Settles O13 (it holds): the result's bits are those of the bit vector operation. -/
theorem logicInstructions : Obligations.LogicInstructions := fun _ _ _ _ =>
  ⟨exists_effect_of_finishFreeOV rfl fun k hk => by simp [hk],
    exists_effect_of_finishFreeOV rfl fun _ => BitVec.getLsbD_and,
    exists_effect_of_finishFreeOV rfl fun _ => BitVec.getLsbD_or,
    exists_effect_of_finishFreeOV rfl fun _ => BitVec.getLsbD_xor⟩

/-- Settles O14 (it holds): in range each result is the exact shift; another shft field takes the other branch. -/
theorem shiftInstructions : Obligations.ShiftInstructions := fun _ _ _ _ =>
  ⟨exists_effect_of_finishFreeOV rfl fun h => toNat_shiftResult_sal h _,
    exists_effect_of_finishFreeOV rfl fun h => toNat_shiftResult_sll h _,
    exists_effect_of_finishFreeOV rfl fun h => toNat_shiftResult_slr h _,
    exists_effect_of_finishFreeOV rfl fun h => toInt_shiftResult_sar h _,
    fun _ h => ⟨if_neg h, if_neg h, if_neg h, if_neg h⟩⟩

/-- Settles O15 (it holds): the comparison is of the signed or of the unsigned values, as `CMP_SIGNED` says. -/
theorem compareRegisters : Obligations.CompareRegisters := fun s rd _ _ =>
  ⟨_, _, rfl, aluEffect_finishFreeOV s rd _, fun h => toInt_compResult_signed h _ _,
    fun h => toInt_compResult_unsigned h _ _, finishFreeOV_statOV .., finishFreeOV_roiPending ..⟩

/-- Settles O16 (it holds): the register form with the extended immediate. -/
theorem addAndSubImmediate : Obligations.AddAndSubImmediate := fun s _ _ imm =>
  ⟨immArith imm s, extendsTo_extend _ (by decide) imm,
    exists_effect_of_finishArith rfl (BitVec.toNat_add _ _), exists_effect_of_finishArith rfl (toNat_sub_eq_emod _ _)⟩

/-- Settles O17 (it holds): the results of `addi` and `subi`, finished without OV. -/
theorem unsignedAddAndSubImmediate : Obligations.UnsignedAddAndSubImmediate := fun s _ _ imm =>
  ⟨immArith imm s, extendsTo_extend _ (by decide) imm,
    exists_effect_of_finishKeepOV rfl (BitVec.toNat_add _ _), exists_effect_of_finishKeepOV rfl (toNat_sub_eq_emod _ _)⟩

/-- Settles O18 (it holds): the register form with the extended immediate. -/
theorem logicImmediateInstructions : Obligations.LogicImmediateInstructions := fun s _ _ imm =>
  ⟨immLogic imm s, extendsTo_extend _ (by decide) imm,
    exists_effect_of_finishFreeOV rfl fun k hk => by simp [hk],
    exists_effect_of_finishFreeOV rfl fun _ => BitVec.getLsbD_and,
    exists_effect_of_finishFreeOV rfl fun _ => BitVec.getLsbD_or,
    exists_effect_of_finishFreeOV rfl fun _ => BitVec.getLsbD_xor⟩

/-- Settles O19 (it holds): the register form with the unsigned immediate as the amount. -/
theorem shiftImmediateInstructions : Obligations.ShiftImmediateInstructions := fun _ _ _ _ =>
  ⟨exists_effect_of_finishFreeOV rfl fun h => toNat_shiftResult_sal h _,
    exists_effect_of_finishFreeOV rfl fun h => toNat_shiftResult_sll h _,
    exists_effect_of_finishFreeOV rfl fun h => toNat_shiftResult_slr h _,
    exists_effect_of_finishFreeOV rfl fun h => toInt_shiftResult_sar h _⟩

/-- Settles O20 (it holds): the register form with the extended immediate. -/
theorem compareImmediate : Obligations.CompareImmediate := fun s rd _ imm =>
  ⟨immArith imm s, extendsTo_extend _ (by decide) imm,
    _, _, rfl, aluEffect_finishFreeOV s rd _, fun h => toInt_compResult_signed h _ _,
    fun h => toInt_compResult_unsigned h _ _, finishFreeOV_statOV .., finishFreeOV_roiPending ..⟩

end Sys2Proof.Machine

/-! PROOFS. Loads and stores (42_load_store.md): the value of a read from its bytes, the read of a mixed access, the frames, the
stops, then what a load finds after a store. -/

namespace Sys2Proof.Machine

/-! ## The value of a read (20_memory.md R76) -/

theorem toNat_shiftLeft_or_byte {x : Word} (hx : x.toNat < 2 ^ 24) (b : Byte) :
    (x <<< 8 ||| b.setWidth 32).toNat = x.toNat * 2 ^ 8 + b.toNat := by
  have hshift : (x <<< 8).toNat = x.toNat <<< 8 := by
    rw [BitVec.toNat_shiftLeft, Nat.shiftLeft_eq]
    exact Nat.mod_eq_of_lt (by omega)
  have hbyte : (b.setWidth 32).toNat = b.toNat := BitVec.toNat_setWidth_of_le (by decide)
  rw [BitVec.toNat_or, hshift, hbyte, ← Nat.shiftLeft_add_eq_or_of_lt b.isLt, Nat.shiftLeft_eq]

theorem toNat_loadValue_succ (s : State) (a : Word) {n : Nat} (hn : n < 4) :
    (loadValue s a (n + 1)).toNat = (loadValue s a n).toNat * 2 ^ 8 + (dataByte s (a + BitVec.ofNat 32 n)).toNat :=
  toNat_shiftLeft_or_byte ((loadValue_lt s a n).trans_le (Nat.pow_le_pow_right (by decide) (by omega))) _

/-- A read whose bytes are the low ones of `v` is `v` cut to its width. -/
theorem toNat_loadValue_of_bytes {s : State} {a v : Word} {n : Nat} (hn : n ≤ 4)
    (h : ∀ k < n, dataByte s (a + BitVec.ofNat 32 k) = v.extractLsb' (8 * (n - 1 - k)) 8) :
    (loadValue s a n).toNat = v.toNat % 2 ^ (8 * n) := by
  induction n generalizing v with
  | zero => simp [loadValue, Nat.mod_one]
  | succ n ih =>
    have hlow : (dataByte s (a + BitVec.ofNat 32 n)).toNat = v.toNat % 2 ^ 8 := by
      simp [h n n.lt_succ_self]
    have hhigh : (loadValue s a n).toNat = v.toNat / 2 ^ 8 % 2 ^ (8 * n) := by
      have hshift : v.toNat / 2 ^ 8 = (v >>> 8).toNat := by rw [BitVec.toNat_ushiftRight, Nat.shiftRight_eq_div_pow]
      rw [hshift]
      refine ih (by omega) fun k hk => ?_
      rw [extractLsb'_ushiftRight_eight, ← byteOffset_succ hk]
      exact h k (by omega)
    rw [toNat_loadValue_succ s a (by omega), hlow, hhigh, Nat.mul_succ, Nat.add_comm (8 * n), Nat.pow_add, Nat.mod_mul]
    omega

/-- The first `k` bytes of a mixed read have zeros above them. -/
theorem mixedValue_lt (s : State) (answer a : Word) (n k : Nat) : (mixedValue s answer a n k).toNat < 2 ^ (8 * k) := by
  induction k with
  | zero => simp [mixedValue]
  | succ k ih => exact toNat_shiftLeft_or_byte_lt ih _

/-- What a mixed read of `n` bytes takes at `k`: the device's byte inside a window, memory's outside (20_memory.md R84). -/
def mixedByte (s : State) (answer a : Word) (n k : Nat) : Byte :=
  if isDevice s.cfg.dMemMap (a + BitVec.ofNat 32 k) then answer.extractLsb' (8 * (n - 1 - k)) 8
  else dataByte s (a + BitVec.ofNat 32 k)

theorem extractLsb'_mixedValue (s : State) (answer a : Word) (n : Nat) {m k : Nat} (hm : m ≤ 4) (hk : k < m) :
    (mixedValue s answer a n m).extractLsb' (8 * (m - 1 - k)) 8 = mixedByte s answer a n k := by
  induction m with
  | zero => omega
  | succ m ih =>
    obtain hlt | rfl := Nat.lt_succ_iff_lt_or_eq.1 hk
    · rw [byteOffset_succ hlt, mixedValue, extractLsb'_add_eight_shiftLeft_or_byte _ _ (by omega)]
      exact ih (by omega) hlt
    · simpa [mixedValue, mixedByte] using extractLsb'_zero_shiftLeft_or_byte _ _

/-! ## Loads -/

section Loads

variable {s : State} {i : Instr} {n : Nat} {rd rsa : RegIx} {imm : BitVec 14} {a : Word}

/-- A register of the active bank, the pc and the draw counter: the frame of a load, of ldspr and of test. -/
theorem loadEffect_writeReg (s : State) (rd : RegIx) (r : Word) (draws : Nat) {device : Nat} (hdevice : device = s.device) :
    LoadEffect s (advance { writeReg rd r s with draws := draws, device := device }) rd r := by
  obtain ⟨hsame, hother, hglobal⟩ := regWritten_writeBank s s.bank rd r
  refine ⟨by simp, ⟨hsame, hother, hglobal⟩, by simp [SameFlags], by simp, ?_, ?_⟩
  · simp [SameSystem, SameStatRest, SameSprs, SameHidden, SameCode, hdevice]
  · exact dataByte?_congr (by simp) (by simp) (by simp)

theorem readReg_of_loadEffect {t : State} {r : Word} (h : LoadEffect s t rd r) (hrd : rd ≠ 0) : readReg rd t = r := by
  obtain ⟨-, ⟨hsame, -, -⟩, -, -, ⟨-, -, -, -, hbank, -, -⟩, -⟩ := h
  rw [readReg, hbank]
  exact hsame s.bank rd hrd ⟨rfl, .inl rfl⟩

theorem exists_load_memory (hexec : exec i s = loadFrom n rd rsa imm s)
    (hm : misaligned s.cfg (effAddr rsa imm s) n = false) (ha : allMapped s.cfg.dataMap (effAddr rsa imm s) n = true)
    (hd : touchesDevice s.cfg.dMemMap (effAddr rsa imm s) n = false) {p : Word → Prop}
    (hp : p (loadValue s (effAddr rsa imm s) n)) : ∃ t r, exec i s = .next t ∧ LoadEffect s t rd r ∧ p r := by
  rw [hexec, loadFrom_eq_next n rd rsa imm hm ha, readAccess_of_memory s _ n hd]
  exact ⟨_, _, rfl, loadEffect_writeReg s rd _ _ rfl, hp⟩

theorem deviceLoad_of_exec (hn : n ≤ 4) (hexec : exec i s = loadFrom n rd rsa imm s)
    (hm : misaligned s.cfg (effAddr rsa imm s) n = false) (ha : allMapped s.cfg.dataMap (effAddr rsa imm s) n = true)
    (hd : touchesDevice s.cfg.dMemMap (effAddr rsa imm s) n = true) : DeviceLoad s i rd (effAddr rsa imm s) n := by
  unfold DeviceLoad
  rw [hexec, loadFrom_eq_next n rd rsa imm hm ha, readAccess, if_pos hd]
  exact ⟨_, _, rfl, loadEffect_writeReg s rd _ _ rfl, rfl, mixedValue_lt .., fun k hk => extractLsb'_mixedValue _ _ _ _ hn hk⟩

/-- The alignment test of 4 and of 2 bytes passes as the policy says; the other widths need nothing (20_memory.md R81). -/
theorem aligned_four (h : s.cfg.alignPolicy = .strict → a.toNat % 4 = 0) : misaligned s.cfg a 4 = false :=
  (misaligned_eq_false_iff ..).2 fun hs => ⟨fun _ => h hs, nofun⟩

theorem aligned_two (h : s.cfg.alignPolicy = .strict → a.toNat % 2 = 0) : misaligned s.cfg a 2 = false :=
  (misaligned_eq_false_iff ..).2 fun hs => ⟨nofun, fun _ => h hs⟩

theorem aligned_three (c : Config) (a : Word) : misaligned c a 3 = false :=
  (misaligned_eq_false_iff ..).2 fun _ => ⟨nofun, nofun⟩

theorem aligned_one (c : Config) (a : Word) : misaligned c a 1 = false :=
  (misaligned_eq_false_iff ..).2 fun _ => ⟨nofun, nofun⟩

/-! The value of each width from the bytes that are there. -/

variable {b0 b1 b2 b3 : Byte}

theorem toNat_loadValue_one (h0 : dataByte? s a = some b0) : (loadValue s a 1).toNat = b0.toNat := by
  have hbyte : dataByte s (a + BitVec.ofNat 32 0) = b0 := dataByte_of_some (by simpa using h0)
  rw [toNat_loadValue_succ s a (by decide), hbyte]
  simp [loadValue]

theorem toNat_loadValue_two (h0 : dataByte? s a = some b0) (h1 : dataByte? s (a + 1) = some b1) :
    (loadValue s a 2).toNat = b0.toNat * 2 ^ 8 + b1.toNat := by
  have hbyte : dataByte s (a + BitVec.ofNat 32 1) = b1 := dataByte_of_some h1
  rw [toNat_loadValue_succ s a (by decide), toNat_loadValue_one h0, hbyte]

theorem toNat_loadValue_three (h0 : dataByte? s a = some b0) (h1 : dataByte? s (a + 1) = some b1)
    (h2 : dataByte? s (a + 2) = some b2) :
    (loadValue s a 3).toNat = b0.toNat * 2 ^ 16 + b1.toNat * 2 ^ 8 + b2.toNat := by
  have hbyte : dataByte s (a + BitVec.ofNat 32 2) = b2 := dataByte_of_some h2
  rw [toNat_loadValue_succ s a (by decide), toNat_loadValue_two h0 h1, hbyte]
  omega

theorem toNat_loadValue_four (h0 : dataByte? s a = some b0) (h1 : dataByte? s (a + 1) = some b1)
    (h2 : dataByte? s (a + 2) = some b2) (h3 : dataByte? s (a + 3) = some b3) :
    (loadValue s a 4).toNat = b0.toNat * 2 ^ 24 + b1.toNat * 2 ^ 16 + b2.toNat * 2 ^ 8 + b3.toNat := by
  have hbyte : dataByte s (a + BitVec.ofNat 32 3) = b3 := dataByte_of_some h3
  rw [toNat_loadValue_succ s a (by decide), toNat_loadValue_three h0 h1 h2, hbyte]
  omega

end Loads

/-! ## Stores -/

theorem dataByte?_of_stored {s t : State} {a v x : Word} {n : Nat} (hcfg : t.cfg = s.cfg) (himem : t.imem = s.imem)
    (hdmem : t.dmem = storeValue s.dmem a v n) (hx : ∀ k < n, x ≠ a + BitVec.ofNat 32 k) :
    dataByte? t x = dataByte? s x := by
  simp only [dataByte?, hcfg, himem, hdmem, memRead_storeValue_frame _ a v x hx]

theorem exists_store {s : State} {i : Instr} {n : Nat} {rsb rsa : RegIx} {imm : BitVec 14} (hn : n ≤ 4)
    (hexec : exec i s = storeTo n rsb rsa imm s) (hm : misaligned s.cfg (effAddr rsa imm s) n = false)
    (ha : allMapped s.cfg.dataMap (effAddr rsa imm s) n = true) :
    ∃ t, exec i s = .next t ∧ StoreEffect s t (effAddr rsa imm s) n (readReg rsb s) := by
  rw [hexec, storeTo_eq_next n rsb rsa imm hm ha]
  refine ⟨_, rfl, rfl, ⟨fun _ _ => rfl, fun _ => rfl⟩, ⟨rfl, rfl⟩, rfl, ?_, rfl, fun k hk => ?_,
    fun x hx => dataByte?_of_stored rfl rfl rfl hx⟩
  · simp [SameSystem, SameStatRest, SameSprs, SameHidden, SameCode]
  · have hbyte := memRead_storeValue_byte s.dmem (effAddr rsa imm s) (readReg rsb s) hn hk
    exact ⟨dataByte?_of_memRead hbyte, hbyte.trans_ne (Option.some_ne_none _)⟩

/-! ## Stops (20_memory.md R81, R85) -/

section Stops

variable {s : State} {n : Nat} {r rsa : RegIx} {imm : BitVec 14}

theorem loadFrom_of_misaligned (hm : misaligned s.cfg (effAddr rsa imm s) n = true) (hx : s.cfg.excEntryGiven = false) :
    loadFrom n r rsa imm s = .fault (.exception .misaddr { s with ecode := 1 }) := by
  rw [loadFrom, if_pos hm, raise_eq_fault _ hx]
  rfl

theorem storeTo_of_misaligned (hm : misaligned s.cfg (effAddr rsa imm s) n = true) (hx : s.cfg.excEntryGiven = false) :
    storeTo n r rsa imm s = .fault (.exception .misaddr { s with ecode := 1 }) := by
  rw [storeTo, if_pos hm, raise_eq_fault _ hx]
  rfl

theorem loadFrom_of_unmapped (hm : misaligned s.cfg (effAddr rsa imm s) n = false)
    (ha : allMapped s.cfg.dataMap (effAddr rsa imm s) n = false) :
    loadFrom n r rsa imm s = .fault (.stuckData (effAddr rsa imm s)) := by
  simp [loadFrom, hm, ha]

theorem storeTo_of_unmapped (hm : misaligned s.cfg (effAddr rsa imm s) n = false)
    (ha : allMapped s.cfg.dataMap (effAddr rsa imm s) n = false) :
    storeTo n r rsa imm s = .fault (.stuckData (effAddr rsa imm s)) := by
  simp [storeTo, hm, ha]

theorem misaligned_four {a : Word} (hs : s.cfg.alignPolicy = .strict) (ha : a.toNat % 4 ≠ 0) :
    misaligned s.cfg a 4 = true := by
  by_contra h
  exact ha (((misaligned_eq_false_iff ..).1 (Bool.eq_false_iff.2 h) hs).1 rfl)

theorem misaligned_two {a : Word} (hs : s.cfg.alignPolicy = .strict) (ha : a.toNat % 2 ≠ 0) :
    misaligned s.cfg a 2 = true := by
  by_contra h
  exact ha (((misaligned_eq_false_iff ..).1 (Bool.eq_false_iff.2 h) hs).2 rfl)

end Stops

/-! ## A load after a store (R78; decision D28) -/

theorem dataByte_of_stored {s : State} {m : Memory} {a v : Word} {n k : Nat} (hn : n ≤ 4) (hk : k < n)
    (hdmem : s.dmem = storeValue m a v n) :
    dataByte s (a + BitVec.ofNat 32 k) = v.extractLsb' (8 * (n - 1 - k)) 8 :=
  dataByte_of_some (dataByte?_of_memRead (hdmem ▸ memRead_storeValue_byte m a v hn hk))

theorem exists_load_after_store {s t : State} {load store : Instr} {n : Nat} {rd rsb rsa : RegIx} {imm : BitVec 14}
    (hn : n ≤ 4) (hload : exec load t = loadFrom n rd rsa imm t) (hstore : exec store s = storeTo n rsb rsa imm s)
    (hx : s.cfg.excEntryGiven = false) (hrd : rd ≠ 0) (hd : touchesDevice s.cfg.dMemMap (effAddr rsa imm s) n = false)
    (h : exec store s = .next t) :
    ∃ u, exec load t = .next u ∧ (readReg rd u).toNat = (readReg rsb s).toNat % 2 ^ (8 * n) := by
  obtain ⟨-, hg, -⟩ | ⟨hm, ha, ht⟩ := storeTo_next (hstore.symm.trans h)
  · simp [hx] at hg
  rw [writeAccess_of_memory s _ n _ hd] at ht
  have haddr : effAddr rsa imm t = effAddr rsa imm s := by rw [ht]; rfl
  have hcfg : t.cfg = s.cfg := by rw [ht]; rfl
  have hvalue : (loadValue t (effAddr rsa imm s) n).toNat = (readReg rsb s).toNat % 2 ^ (8 * n) :=
    toNat_loadValue_of_bytes hn fun k hk => dataByte_of_stored hn hk (by rw [ht]; rfl)
  obtain ⟨u, r, hu, heffect, hr⟩ := exists_load_memory (p := (· = loadValue t (effAddr rsa imm s) n)) hload
    (by rwa [hcfg, haddr]) (by rwa [hcfg, haddr]) (by rwa [hcfg, haddr]) (by rw [haddr])
  exact ⟨u, hu, by rw [readReg_of_loadEffect heffect hrd, hr, hvalue]⟩

theorem extractLsb'_ushiftRight (v : Word) (i m : Nat) : (v >>> i).extractLsb' m 8 = v.extractLsb' (i + m) 8 := by
  ext k hk
  simp [Nat.add_assoc]

/-- A read of `n` bytes, `j` bytes into a stored word. -/
theorem toNat_loadValue_of_stored_word {t : State} {m : Memory} {a v : Word} {j n : Nat} (hjn : j + n ≤ 4)
    (hdmem : t.dmem = storeValue m a v 4) :
    (loadValue t (a + BitVec.ofNat 32 j) n).toNat = (v >>> (8 * (4 - j - n))).toNat % 2 ^ (8 * n) := by
  refine toNat_loadValue_of_bytes (by omega) fun k hk => ?_
  rw [BitVec.add_assoc, ← BitVec.ofNat_add, dataByte_of_stored (by decide) (by omega : j + k < 4) hdmem,
    extractLsb'_ushiftRight]
  congr 1
  omega

/-- The first `n` bytes of a stored word are its upper ones. -/
theorem loadValue_upper_of_stored_word {t : State} {m : Memory} {a v : Word} {n : Nat} (hn : n ≤ 4)
    (hdmem : t.dmem = storeValue m a v 4) : loadValue t a n = v >>> (8 * (4 - n)) := by
  have hread := toNat_loadValue_of_stored_word (j := 0) (n := n) (by omega) hdmem
  rw [BitVec.add_zero] at hread
  refine BitVec.eq_of_toNat_eq (hread.trans (Nat.mod_eq_of_lt ?_))
  rw [BitVec.toNat_ushiftRight, Nat.shiftRight_eq_div_pow]
  refine Nat.div_lt_of_lt_mul (v.isLt.trans_eq ?_)
  rw [← Nat.pow_add]
  congr 1
  omega

theorem toNat_lowBytes {n : Nat} (hn : n ≤ 4) (v : Word) : (lowBytes n v).toNat = v.toNat % 2 ^ (8 * n) := by
  have hmask : 2 ^ (8 * n) - 1 < 2 ^ 32 :=
    (Nat.sub_lt (Nat.two_pow_pos _) Nat.one_pos).trans_le (Nat.pow_le_pow_right (by decide) (by omega))
  rw [lowBytes, BitVec.toNat_and, BitVec.toNat_ofNat, Nat.mod_eq_of_lt hmask, Nat.and_two_pow_sub_one_eq_mod]

/-- The last `n` bytes of a stored word are its lower ones. -/
theorem loadValue_lower_of_stored_word {t : State} {m : Memory} {a v : Word} {j n : Nat} (hjn : j + n = 4)
    (hdmem : t.dmem = storeValue m a v 4) : loadValue t (a + BitVec.ofNat 32 j) n = lowBytes n v := by
  refine BitVec.eq_of_toNat_eq ?_
  rw [toNat_loadValue_of_stored_word hjn.le hdmem, toNat_lowBytes (by omega), Nat.sub_sub, hjn]
  rfl

/-! ## The statements -/

/-- Settles O22 (it holds): for each width, a device answers or the bytes join to the value. -/
theorem loadsReadBigEndian : Obligations.LoadsReadBigEndian := by
  intro s rd rsa imm
  refine ⟨extend s.cfg.imm14Ext imm, extendsTo_extend _ (by decide) imm, fun a ha => ?_⟩
  obtain rfl : a = effAddr rsa imm s := ha
  refine ⟨fun hal hmap => ⟨fun hd => ?_, fun hd => ?_⟩, fun hal hmap => ⟨fun hd => ?_, fun hd => ?_⟩,
    fun hmap => ⟨fun hd => ?_, fun hd => ?_⟩, fun hmap => ⟨fun hd => ?_, fun hd => ?_⟩⟩
  · exact deviceLoad_of_exec (by decide) rfl (aligned_four hal) hmap hd
  · exact exists_load_memory rfl (aligned_four hal) hmap hd fun _ _ _ _ h0 h1 h2 h3 => toNat_loadValue_four h0 h1 h2 h3
  · exact deviceLoad_of_exec (by decide) rfl (aligned_two hal) hmap hd
  · exact exists_load_memory rfl (aligned_two hal) hmap hd fun _ _ h0 h1 => toNat_loadValue_two h0 h1
  · exact deviceLoad_of_exec (by decide) rfl (aligned_three _ _) hmap hd
  · exact exists_load_memory rfl (aligned_three _ _) hmap hd fun _ _ _ h0 h1 h2 => toNat_loadValue_three h0 h1 h2
  · exact deviceLoad_of_exec (by decide) rfl (aligned_one _ _) hmap hd
  · exact exists_load_memory rfl (aligned_one _ _) hmap hd fun _ h0 => toNat_loadValue_one h0

/-- Settles O23 (it holds): a store of each width, once its address is aligned. -/
theorem storesWriteBigEndian : Obligations.StoresWriteBigEndian := by
  intro s rsb rsa imm
  refine ⟨extend s.cfg.imm14Ext imm, extendsTo_extend _ (by decide) imm, fun a ha => ?_⟩
  obtain rfl : a = effAddr rsa imm s := ha
  exact ⟨fun hal => exists_store (by decide) rfl (aligned_four hal), fun hal => exists_store (by decide) rfl (aligned_two hal),
    exists_store (by decide) rfl (aligned_three _ _), exists_store (by decide) rfl (aligned_one _ _)⟩

/-- Settles O24 (it holds): the alignment test comes before the map. -/
theorem badAddressesStopLoadsAndStores : Obligations.BadAddressesStopLoadsAndStores := by
  intro s r rsa imm a ha
  subst ha
  exact ⟨fun hs hx =>
      ⟨fun hal => ⟨loadFrom_of_misaligned (misaligned_four hs hal) hx, storeTo_of_misaligned (misaligned_four hs hal) hx⟩,
        fun hal => ⟨loadFrom_of_misaligned (misaligned_two hs hal) hx, storeTo_of_misaligned (misaligned_two hs hal) hx⟩⟩,
    fun hal hmap => ⟨loadFrom_of_unmapped (aligned_four hal) hmap, storeTo_of_unmapped (aligned_four hal) hmap⟩,
    fun hal hmap => ⟨loadFrom_of_unmapped (aligned_two hal) hmap, storeTo_of_unmapped (aligned_two hal) hmap⟩,
    fun hmap => ⟨loadFrom_of_unmapped (aligned_three _ _) hmap, storeTo_of_unmapped (aligned_three _ _) hmap⟩,
    fun hmap => ⟨loadFrom_of_unmapped (aligned_one _ _) hmap, storeTo_of_unmapped (aligned_one _ _) hmap⟩⟩

/-- Settles O25 (it holds): a load of the width of the store joins the bytes it put there. -/
theorem storeThenLoad : Obligations.StoreThenLoad := by
  intro s t rd rsb rsa imm hx hrd
  refine ⟨fun hd h => ?_, exists_load_after_store (by decide) rfl rfl hx hrd,
    exists_load_after_store (by decide) rfl rfl hx hrd, exists_load_after_store (by decide) rfl rfl hx hrd⟩
  obtain ⟨u, hu, hvalue⟩ := exists_load_after_store (n := 4) (load := .lw rd rsa imm) (by decide) rfl rfl hx hrd hd h
  exact ⟨u, hu, hvalue.trans (Nat.mod_eq_of_lt (readReg rsb s).isLt)⟩

/-- Settles O26 (it holds): a read from the word's first byte takes its upper bytes, one up to its last byte its lower ones. -/
theorem narrowReadsOfWideStore : Obligations.NarrowReadsOfWideStore := by
  intro s a v t
  exact ⟨loadValue_upper_of_stored_word (n := 1) (by decide) rfl, loadValue_upper_of_stored_word (n := 2) (by decide) rfl,
    loadValue_upper_of_stored_word (n := 3) (by decide) rfl,
    (loadValue_upper_of_stored_word (n := 4) (by decide) rfl).trans (BitVec.ushiftRight_zero v),
    loadValue_lower_of_stored_word (j := 3) (n := 1) rfl rfl, loadValue_lower_of_stored_word (j := 1) (n := 3) rfl rfl⟩

end Sys2Proof.Machine

/-! PROOFS. Load immediates, branches and jumps (43_load_immediate.md, 44_branch_jump.md, 46_macros.md): the frame of a register
write, the value of each immediate form, where control goes, then the two expansions that compute an address. -/

namespace Sys2Proof.Machine

/-! ## The frame of a register write -/

section Frame

variable (s : State) (b : Bank) (i : RegIx) (v : Word)

theorem sameSystem_writeBank : SameSystem s (writeBank b i v s) := by
  simp [SameSystem, SameStatRest, SameSprs, SameHidden, SameCode]

theorem sameData_writeBank : SameData s (writeBank b i v s) := dataByte?_congr (by simp) (by simp) (by simp)

theorem sameFlags_writeBank : SameFlags s (writeBank b i v s) := by simp [SameFlags]

theorem immEffect_writeBank : ImmEffect s (advance (writeBank b i v s)) :=
  ⟨by simp, sameFlags_writeBank s b i v, writeBank_roiPending s b i v, sameSystem_writeBank s b i v, sameData_writeBank s b i v⟩

theorem immEffect_writeGlobal : ImmEffect s (advance (writeGlobal i v s)) :=
  ⟨rfl, ⟨rfl, rfl⟩, rfl, by simp [SameSystem, SameStatRest, SameSprs, SameHidden, SameCode], fun _ => rfl⟩

theorem globalWritten_writeGlobal : GlobalWritten s (writeGlobal i v s) i v :=
  ⟨fun b j => readBank_writeGlobal b i j v s, by simp, fun j hj => by simp [hj]⟩

end Frame

section LoadImmediates

variable {s : State} {i : Instr} {b : Bank} {rd : RegIx} {v w : Word}

theorem exists_bank_written (hexec : exec i s = .next (advance (writeBank b rd v s))) (hv : v = w) :
    ∃ t, exec i s = .next t ∧ ImmEffect s t ∧ RegWritten s t b rd w :=
  ⟨_, hexec, immEffect_writeBank s b rd v, hv ▸ regWritten_writeBank s b rd v⟩

theorem exists_global_written (hexec : exec i s = .next (advance (writeGlobal rd v s))) (hv : v = w) :
    ∃ t, exec i s = .next t ∧ ImmEffect s t ∧ GlobalWritten s t rd w :=
  ⟨_, hexec, immEffect_writeGlobal s rd v, hv ▸ globalWritten_writeGlobal s rd v⟩

/-! ## The value of a load immediate (43_load_immediate.md R201) -/

variable {mode : LiMode} (old : Word) (imm : BitVec 16)

theorem immValue_whole_signed (h : mode = .whole) : immValue mode .lowerSigned old imm = imm.signExtend 32 := by
  rw [h, immValue]

theorem immValue_whole_unsigned (h : mode = .whole) : immValue mode .lowerUnsigned old imm = BitVec.ofNat 32 imm.toNat := by
  rw [h, immValue, BitVec.ofNat_toNat]

theorem immValue_whole_upper (h : mode = .whole) : immValue mode .upper old imm = imm ++ (0 : BitVec 16) := by
  rw [h, immValue]

theorem immValue_half_signed (h : mode = .half) : immValue mode .lowerSigned old imm = old.extractLsb' 16 16 ++ imm := by
  rw [h, immValue]

theorem immValue_half_unsigned (h : mode = .half) :
    immValue mode .lowerUnsigned old imm = old.extractLsb' 16 16 ++ imm := by
  rw [h, immValue]

theorem immValue_half_upper (h : mode = .half) : immValue mode .upper old imm = imm ++ old.extractLsb' 0 16 := by
  rw [h, immValue]

theorem toInt_signExtend_imm : (imm.signExtend 32).toInt = imm.toInt := BitVec.toInt_signExtend_of_le (by decide)

theorem toNat_append_half (a b : BitVec 16) : (a ++ b).toNat = a.toNat * 2 ^ 16 + b.toNat := by
  rw [BitVec.toNat_append, ← Nat.shiftLeft_add_eq_or_of_lt b.isLt, Nat.shiftLeft_eq]

theorem toNat_append_zero_half : (imm ++ (0 : BitVec 16)).toNat = imm.toNat * 2 ^ 16 := by
  simpa using toNat_append_half imm 0

theorem halfWritten_append : HalfWritten old imm (old.extractLsb' 16 16 ++ imm) (imm ++ old.extractLsb' 0 16) := by
  have hupper : (old.extractLsb' 16 16).toNat = old.toNat / 2 ^ 16 := by
    rw [BitVec.extractLsb'_toNat, Nat.shiftRight_eq_div_pow]
    exact Nat.mod_eq_of_lt (by omega)
  have hlower : (old.extractLsb' 0 16).toNat = old.toNat % 2 ^ 16 := by simp
  exact ⟨by rw [toNat_append_half, hupper], by rw [toNat_append_half, hlower]⟩

end LoadImmediates

/-! ## Branches and jumps -/

theorem branchGoes_of_exec {s : State} {i : Instr} {imm : BitVec 14} {c : Bool} {p : Prop}
    (hexec : exec i s = branchIf c imm s) (hc : c = true ↔ p) : BranchGoes s i imm p := by
  refine ⟨extend s.cfg.imm14Ext imm, extendsTo_extend _ (by decide) imm, _, hexec, ?_, fun hp => ?_, fun hp => ?_⟩
  · cases c <;> rfl
  · rw [if_pos (hc.2 hp)]
    rfl
  · rw [if_neg (mt hc.1 hp)]
    rfl

theorem jumpTarget_pcrel {s : State} (imm : BitVec 21) (h : s.cfg.jMode = .pcrelWhenRsaZero) :
    jumpTarget imm s = s.pc + extend s.cfg.imm21Ext imm := by
  rw [jumpTarget, h]

theorem jumpTarget_absolute {s : State} (imm : BitVec 21) (h : s.cfg.jMode = .alwaysRegister) :
    jumpTarget imm s = extend s.cfg.imm21Ext imm := by
  rw [jumpTarget, h]
  exact BitVec.zero_add _

theorem exec_j (imm : BitVec 21) (s : State) : exec (.j imm) s = .next (setPc (jumpTarget imm s) s) := rfl

/-- The link, with the pc set elsewhere, writes $R4 of the active bank and nothing else (44_branch_jump.md R227). -/
theorem exists_link {s : State} {i : Instr} {p : Word} (hexec : exec i s = .next (setPc p (link s))) :
    ∃ t, exec i s = .next t ∧ RegWritten s t s.bank 4 (s.pc + 4) ∧ t.pc = p ∧ SameFlags s t ∧
      t.roiPending = s.roiPending ∧ SameSystem s t ∧ SameData s t :=
  ⟨_, hexec, regWritten_writeBank s s.bank 4 (s.pc + 4), rfl, sameFlags_writeBank s s.bank 4 (s.pc + 4),
    writeBank_roiPending s s.bank 4 (s.pc + 4), sameSystem_writeBank s s.bank 4 (s.pc + 4),
    sameData_writeBank s s.bank 4 (s.pc + 4)⟩

/-! ## Addresses in two halves (46_macros.md R270 to R272) -/

theorem toNat_hi16 (a : Word) : (hi16 a).toNat = a.toNat / 2 ^ 16 := by
  rw [hi16, BitVec.extractLsb'_toNat, Nat.shiftRight_eq_div_pow]
  exact Nat.mod_eq_of_lt (by omega)

theorem toNat_lo16 (a : Word) : (lo16 a).toNat = a.toNat % 2 ^ 16 := by simp [lo16]

theorem toNat_hi16_append_zero (a : Word) : (hi16 a ++ (0 : BitVec 16)).toNat = a.toNat / 2 ^ 16 * 2 ^ 16 := by
  rw [toNat_append_zero_half, toNat_hi16]

/-- The call's second half has zeros above it, so that either extension keeps its value. -/
theorem toNat_extend_lo16 (e : ImmExt) (a : Word) : (extend e ((lo16 a).setWidth 21)).toNat = a.toNat % 2 ^ 16 := by
  have hwide : ((lo16 a).setWidth 21).toNat = a.toNat % 2 ^ 16 := by
    rw [BitVec.toNat_setWidth_of_le (by decide), toNat_lo16]
  have hmsb : ((lo16 a).setWidth 21).msb = false := BitVec.msb_eq_false_iff_two_mul_lt.2 (by omega)
  cases e with
  | zero => exact (BitVec.toNat_setWidth_of_le (by decide)).trans hwide
  | sign =>
    rw [extend, BitVec.signExtend_eq_setWidth_of_msb_false hmsb, BitVec.toNat_setWidth_of_le (by decide), hwide]

theorem hi16_append_zero_add_extend_lo16 (e : ImmExt) (a : Word) :
    (hi16 a ++ (0 : BitVec 16)) + extend e ((lo16 a).setWidth 21) = a := by
  apply BitVec.eq_of_toNat_eq
  rw [BitVec.toNat_add, toNat_hi16_append_zero, toNat_extend_lo16]
  omega

theorem hi16_append_lo16 (a : Word) (x : BitVec 16) : hi16 a ++ (x ++ lo16 a).extractLsb' 0 16 = a := by
  apply BitVec.eq_of_toNat_eq
  rw [toNat_append_half, toNat_hi16, BitVec.extractLsb'_toNat, toNat_append_half, toNat_lo16]
  omega

theorem extend_zero (e : ImmExt) : extend e (0 : BitVec 21) = 0 := by
  cases e <;> rfl

/-! ## Reading through the frame of a write -/

section Reading

variable {s t : State} {b : Bank} {i : RegIx} {v : Word} (hw : RegWritten s t b i v)

include hw

theorem readBank_of_regWritten (hi : i ≠ 0) : readBank b i t = v := by
  obtain ⟨hsame, -, -⟩ := hw
  exact hsame b i hi ⟨rfl, .inl rfl⟩

theorem readReg_of_regWritten (hbank : t.bank = s.bank) (hi : i ≠ 0) (hb : s.bank = b ∨ i ∈ s.cfg.bankShared) :
    readReg i t = v := by
  obtain ⟨hsame, -, -⟩ := hw
  rw [readReg, hbank]
  exact hsame s.bank i hi ⟨rfl, hb⟩

theorem readReg_of_not_regWritten (hbank : t.bank = s.bank) {j : RegIx} (hj : j ≠ i) : readReg j t = readReg j s := by
  obtain ⟨-, hother, -⟩ := hw
  rw [readReg, hbank]
  exact hother s.bank j (.inr fun ⟨hji, _⟩ => hj hji)

end Reading

theorem cfg_of_sameSystem {s t : State} (h : SameSystem s t) : t.cfg = s.cfg := by
  obtain ⟨-, -, ⟨hcfg, -⟩, -⟩ := h
  exact hcfg

theorem bank_of_sameSystem {s t : State} (h : SameSystem s t) : t.bank = s.bank := by
  obtain ⟨-, -, -, -, hbank, -⟩ := h
  exact hbank

/-! ## The statements -/

/-- Settles O27 (it holds): the file the form writes and the value, form by form. -/
theorem loadImmediateWhole : Obligations.LoadImmediateWhole := fun _ _ imm h =>
  ⟨imm.signExtend 32, imm ++ (0 : BitVec 16), toInt_signExtend_imm imm, toNat_append_zero_half imm,
    exists_bank_written rfl (immValue_whole_signed _ imm h), exists_bank_written rfl (immValue_whole_unsigned _ imm h),
    exists_bank_written rfl (immValue_whole_upper _ imm h), exists_bank_written rfl (immValue_whole_upper _ imm h),
    exists_bank_written rfl (immValue_whole_signed _ imm h), exists_bank_written rfl (immValue_whole_unsigned _ imm h),
    exists_bank_written rfl (immValue_whole_upper _ imm h), exists_bank_written rfl (immValue_whole_upper _ imm h)⟩

/-- Settles O28 (it holds): the value, form by form, in the global file. -/
theorem loadImmediateGlobal : Obligations.LoadImmediateGlobal := fun _ _ imm h =>
  ⟨imm.signExtend 32, imm ++ (0 : BitVec 16), toInt_signExtend_imm imm, toNat_append_zero_half imm,
    exists_global_written rfl (immValue_whole_signed _ imm h), exists_global_written rfl (immValue_whole_unsigned _ imm h),
    exists_global_written rfl (immValue_whole_upper _ imm h), exists_global_written rfl (immValue_whole_upper _ imm h)⟩

/-- Settles O29 (it holds): each half written, in each of the three files. -/
theorem loadImmediateHalf : Obligations.LoadImmediateHalf := fun _ _ imm h =>
  ⟨⟨_, _, halfWritten_append _ imm,
      exists_bank_written rfl (immValue_half_signed _ imm h), exists_bank_written rfl (immValue_half_unsigned _ imm h),
      exists_bank_written rfl (immValue_half_upper _ imm h), exists_bank_written rfl (immValue_half_upper _ imm h)⟩,
    ⟨_, _, halfWritten_append _ imm,
      exists_bank_written rfl (immValue_half_signed _ imm h), exists_bank_written rfl (immValue_half_unsigned _ imm h),
      exists_bank_written rfl (immValue_half_upper _ imm h), exists_bank_written rfl (immValue_half_upper _ imm h)⟩,
    ⟨_, _, halfWritten_append _ imm,
      exists_global_written rfl (immValue_half_signed _ imm h), exists_global_written rfl (immValue_half_unsigned _ imm h),
      exists_global_written rfl (immValue_half_upper _ imm h), exists_global_written rfl (immValue_half_upper _ imm h)⟩⟩

/-- Settles O30 (it holds): the test of each branch. -/
theorem branchOnEquality : Obligations.BranchOnEquality := fun _ _ _ _ =>
  ⟨branchGoes_of_exec rfl beq_iff_eq, branchGoes_of_exec rfl bne_iff_ne⟩

/-- Settles O31 (it holds): the order the parameter chooses. -/
theorem branchOnOrder : Obligations.BranchOnOrder := fun s _ _ _ =>
  ⟨fun h =>
    have horder (a b : Word) : greater s.cfg a b = true ↔ b.toInt < a.toInt := by rw [greater_iff, if_pos h]
    ⟨branchGoes_of_exec rfl (horder _ _), branchGoes_of_exec rfl (horder _ _)⟩,
  fun h =>
    have horder (a b : Word) : greater s.cfg a b = true ↔ b.toNat < a.toNat := by simp [greater_iff, h]
    ⟨branchGoes_of_exec rfl (horder _ _), branchGoes_of_exec rfl (horder _ _)⟩⟩

/-- Settles O32 (it holds): the target, by `J_MODE` for the two with no base. -/
theorem jumpTargets : Obligations.JumpTargets := fun s _ imm =>
  ⟨extend s.cfg.imm21Ext imm, extendsTo_extend _ (by decide) imm,
    fun h => ⟨by rw [exec_j, jumpTarget_pcrel imm h]; rfl, _, rfl, jumpTarget_pcrel imm h⟩,
    fun h => ⟨by rw [exec_j, jumpTarget_absolute imm h]; rfl, _, rfl, jumpTarget_absolute imm h⟩,
    rfl, _, rfl, rfl⟩

/-- Settles O33 (it holds): the target is computed before the link is written. -/
theorem linkingJumpsSaveTheReturnAddress : Obligations.LinkingJumpsSaveTheReturnAddress := fun _ _ _ =>
  ⟨exists_link rfl, exists_link rfl⟩

/-- Settles O34 (it holds): $R22 holds the upper half when the jump reads it, and the link does not touch it. -/
theorem callReachesItsAddressAndRetReturns : Obligations.CallReachesItsAddressAndRetReturns := by
  intro s a hmode hbank
  obtain ⟨t, ht, ⟨htpc, -, -, htsystem, -⟩, htreg⟩ :=
    exists_bank_written (i := .lui tmp0Reg (hi16 a)) (s := s) rfl (immValue_whole_upper _ _ hmode)
  obtain ⟨u, hu, hureg, hupc, -, -, husystem, -⟩ :=
    exists_link (i := .jrl tmp0Reg ((lo16 a).setWidth 21)) (s := t) rfl
  have htbank := bank_of_sameSystem htsystem
  have hubank := bank_of_sameSystem husystem
  have hbase : readReg 22 t = hi16 a ++ (0 : BitVec 16) := readReg_of_regWritten htreg htbank (by decide) hbank
  have hkept : readReg 22 u = hi16 a ++ (0 : BitVec 16) := (readReg_of_not_regWritten hureg hubank (by decide)).trans hbase
  have hlink : readReg 4 u = s.pc + 8 := by
    rw [readReg_of_regWritten hureg hubank (by decide) (.inl rfl), htpc, BitVec.add_assoc]
    rfl
  refine ⟨_, _, t, u, rfl, ht, hu, ?_, hlink, ?_, _, _, rfl, rfl, ?_⟩
  · calc u.pc = readReg 22 t + extend t.cfg.imm21Ext ((lo16 a).setWidth 21) := hupc
      _ = a := by rw [hbase, hi16_append_zero_add_extend_lo16]
  · rw [hkept, toNat_hi16_append_zero]
  · calc jumpRegTarget 4 0 u = readReg 4 u + extend u.cfg.imm21Ext (0 : BitVec 21) := rfl
      _ = s.pc + 8 := by rw [hlink, extend_zero]; exact BitVec.add_zero _

/-- Settles O35 (it holds): under whole the second instruction overwrites the first, under half it keeps its lower half. -/
theorem laLoadsOnlyTheUpperHalf : Obligations.LaLoadsOnlyTheUpperHalf := by
  intro s rd a hrd
  obtain ⟨t, ht, ⟨-, -, -, htsystem, -⟩, htreg⟩ := exists_bank_written (i := .li rd (lo16 a)) (s := s) rfl rfl
  obtain ⟨u, hu, -, hureg⟩ := exists_bank_written (i := .lui rd (hi16 a)) (s := t) rfl rfl
  have hcfg := cfg_of_sameSystem htsystem
  refine ⟨_, _, t, u, rfl, ht, hu, fun h => ?_, fun h => ?_⟩
  · rw [readBank_of_regWritten hureg hrd, immValue_whole_upper _ _ (hcfg ▸ h), toNat_hi16_append_zero]
  · have hlower : readFile .gp rd t = (readFile .gp rd s).extractLsb' 16 16 ++ lo16 a :=
      (readBank_of_regWritten htreg hrd).trans (immValue_half_signed _ _ h)
    rw [readBank_of_regWritten hureg hrd, immValue_half_upper _ _ (hcfg ▸ h), hlower, hi16_append_lo16]

end Sys2Proof.Machine

/-! PROOFS. System call and return (45_system.md R242, R244): the tests of a call in their order, the level a routine runs at, the
return. -/

namespace Sys2Proof.Machine

section Calls

variable {s : State} {n : Byte} {rows : List SysCallRow} {e : SysCallEntry}

/-! ## The tests of a system call -/

theorem execSyscall_of_no_table (h : s.cfg.sysCallTable = none) : execSyscall n s = .refused .noSysCallTable := by
  rw [execSyscall, h]

theorem execSyscall_of_nested (h : s.cfg.sysCallTable ≠ none) (hbank : s.bank = .sys) :
    execSyscall n s = .refused .nestedSysCall := by
  obtain ⟨rows, hrows⟩ := Option.ne_none_iff_exists'.1 h
  simp [execSyscall, hrows, hbank]

variable (hrows : s.cfg.sysCallTable = some rows) (hbank : s.bank ≠ .sys)

include hrows hbank

theorem execSyscall_of_no_pointer (h : s.sysctp = 0) : execSyscall n s = raise .invsys s := by
  simp only [execSyscall, hrows, if_neg hbank, if_pos h]

theorem execSyscall_of_no_routine (h : s.sysctp ≠ 0) (hlookup : sysCallLookup rows s.sysctp n = none) :
    execSyscall n s = raise .invsys s := by
  simp only [execSyscall, hrows, if_neg hbank, if_neg h, hlookup]

theorem execSyscall_of_low_level (h : s.sysctp ≠ 0) (hlookup : sysCallLookup rows s.sysctp n = some e)
    (hlevel : (level s).toNat < e.minPml.code.toNat) : execSyscall n s = raise .insfpem (setPema false s) := by
  simp only [execSyscall, hrows, if_neg hbank, if_neg h, hlookup, if_pos hlevel]

theorem execSyscall_of_accepted (h : s.sysctp ≠ 0) (hlookup : sysCallLookup rows s.sysctp n = some e)
    (hlevel : e.minPml.code.toNat ≤ (level s).toNat) : execSyscall n s = .next (enterSysCall e s) := by
  simp only [execSyscall, hrows, if_neg hbank, if_neg h, hlookup, if_neg (not_lt.2 hlevel)]

end Calls

/-- A caller in the USER bank is not nested. -/
theorem bank_ne_sys {s : State} (h : s.bank = .user) : s.bank ≠ .sys := by simp [h]

/-! ## The level of a routine -/

theorem code_ne_reserved (l : Level) : l.code ≠ 0b110 := by
  cases l <;> decide

theorem code_le_seven (l : Level) : l.code.toNat ≤ 7 := by omega

/-- Where the levels are not implemented the level reads 7, and the routine's is not above it. -/
theorem level_enterSysCall (e : SysCallEntry) (s : State) : level (enterSysCall e s) = routineLevel e s := by
  rw [enterSysCall_eq, level]
  cases himpl : s.cfg.pmlImplemented with
  | true => rfl
  | false =>
    have hseven : level s = 7 := level_of_not_implemented himpl
    have hnot : e.runPml.code.toNat ≤ (level s).toNat := by
      rw [hseven]
      exact code_le_seven e.runPml
    rw [routineLevel, if_pos hnot, hseven]
    rfl

theorem pema_enterSysCall (e : SysCallEntry) (s : State) : pema (enterSysCall e s) = .known true := by
  rw [enterSysCall_eq, pema]
  cases s.cfg.pmlImplemented <;> rfl

theorem level_returnFromSysCall {s : State} (h : s.cfg.pmlImplemented = true) : level (returnFromSysCall s) = s.sysRetPml := by
  rw [returnFromSysCall_eq, level]
  simp [h]

/-! ## The statements -/

/-- Settles O37 (it holds): the accepted call's update, with the level it runs at apart. -/
theorem acceptedSyscallEntersTheRoutine : Obligations.AcceptedSyscallEntersTheRoutine := by
  intro s n rows e hrows hbank hsysctp hlookup hmin
  have hlevel := level_enterSysCall e s
  have hpema := pema_enterSysCall e s
  have hmax (h : e.runPml.code.toNat ≤ s.cfg.maxPml.code.toNat ∨ e.runPml.code.toNat ≤ (level s).toNat) :
      (level (enterSysCall e s)).toNat = max (level s).toNat e.runPml.code.toNat := by
    rw [hlevel]
    exact routineLevel_toNat e s (h.imp_left fun htop => levelExists_iff.2 ⟨code_ne_reserved _, htop⟩)
  have hlegal : level (enterSysCall e s) = level s ∨ ((level s).toNat < (level (enterSysCall e s)).toNat ∧
      level (enterSysCall e s) ≠ 0b110 ∧ (level (enterSysCall e s)).toNat ≤ s.cfg.maxPml.code.toNat) := by
    rw [hlevel]
    exact (routineLevel_cases e s).imp_right (.imp_right levelExists_iff.1)
  refine ⟨_, execSyscall_of_accepted hrows (bank_ne_sys hbank) hsysctp hlookup hmin, ?_⟩
  rw [enterSysCall_eq] at *
  exact ⟨rfl, rfl, rfl, hpema, hmax, hlegal, rfl, ⟨fun _ _ => rfl, fun _ => rfl⟩, ⟨rfl, rfl⟩,
    ⟨rfl, rfl, rfl, rfl, rfl, rfl, rfl, rfl, rfl, rfl, rfl⟩, rfl, rfl, rfl, rfl, rfl, rfl, rfl, fun _ => rfl, fun _ => rfl⟩

/-- Settles O40 (it holds): the return's update. -/
theorem sysretReturns : Obligations.SysretReturns := by
  intro s hbank
  refine ⟨_, if_pos hbank, ?_⟩
  rw [returnFromSysCall_eq]
  exact ⟨rfl, rfl, fun h => if_pos h, fun h => level_of_not_implemented h, ⟨fun _ _ => rfl, fun _ => rfl⟩, ⟨rfl, rfl⟩,
    ⟨rfl, rfl, rfl, rfl, rfl, rfl, rfl, rfl, rfl, rfl, rfl⟩, ⟨rfl, rfl, rfl, rfl, rfl⟩, rfl, rfl, rfl, rfl, rfl, rfl,
    fun _ => rfl, fun _ => rfl⟩

/-- Settles O41 (it holds): the call saved the pc after it and its level, and only a caller in the USER bank is let in. -/
theorem sysretUndoesSyscall : Obligations.SysretUndoesSyscall := by
  intro s t u n h hx hcfg hubank hupc hupml
  obtain ⟨rows, e, -, hbank, -, -, -, rfl⟩ := resolve_excEntry hx (execSyscall_next h)
  rw [enterSysCall_eq] at hubank hupc hupml
  refine ⟨_, if_pos hubank, hupc, ?_, ?_⟩
  · cases himpl : s.cfg.pmlImplemented with
    | true => rw [level_returnFromSysCall (hcfg ▸ himpl), hupml]
    | false =>
      rw [level_of_not_implemented himpl, level_of_not_implemented]
      rw [returnFromSysCall_eq]
      exact hcfg ▸ himpl
  · cases hs : s.bank with
    | user => rfl
    | sys => exact absurd hs hbank

/-- Settles O38 (it holds): the three refusals in their order. -/
theorem invalidSyscallRaises : Obligations.InvalidSyscallRaises := by
  intro s n rows hrows hbank hx
  refine ⟨fun h => ?_, fun h hlookup => ?_, fun e h hlookup himpl hlevel => ?_⟩
  · exact (execSyscall_of_no_pointer hrows (bank_ne_sys hbank) h).trans (raise_eq_fault _ hx)
  · exact (execSyscall_of_no_routine hrows (bank_ne_sys hbank) h hlookup).trans (raise_eq_fault _ hx)
  · have hlow : (level s).toNat < e.minPml.code.toNat := by rwa [level, if_pos himpl]
    have hpema : setPema false s = { s with statPema := .known false } := if_pos himpl
    refine (execSyscall_of_low_level hrows (bank_ne_sys hbank) h hlookup hlow).trans ?_
    rw [hpema]
    exact raise_eq_fault _ hx

/-- Settles O39 (it holds): the table and the bank are looked at first. -/
theorem syscallAndSysretRefusals : Obligations.SyscallAndSysretRefusals := fun _ _ =>
  ⟨execSyscall_of_no_table, execSyscall_of_nested, fun hbank => if_neg (bank_ne_sys hbank)⟩

end Sys2Proof.Machine

/-! PROOFS. The special purpose registers (10_state.md R41 to R60, 45_system.md R246 to R249): what a register reads after a write,
which register an address names, what stspr and ldspr then do, and their refusals. -/

namespace Sys2Proof.Machine

/-! ## Reading after a write -/

/-- By cases on the register written, then on the one read. -/
theorem readSpr_writeSpr_of_ne {r r' : Spr} (h : r' ≠ r) (v : Word) (s : State) :
    readSpr r' (writeSpr r v s) = readSpr r' s := by
  unfold writeSpr
  split <;> cases r' with
  | supv x => cases x <;> simp_all [readSpr]
  | _ => simp_all [readSpr, statValue, pema, level]

/-- The low bits of a word, zero-extended (decision D21). -/
theorem setWidth_setWidth_eq_and (v : Word) {n : Nat} (hn : n ≤ 32) :
    (v.setWidth n).setWidth 32 = v &&& BitVec.ofNat 32 (2 ^ n - 1) := by
  have hle : 2 ^ n ≤ 2 ^ 32 := Nat.pow_le_pow_right (by decide) hn
  have hpos : 0 < 2 ^ n := Nat.two_pow_pos n
  apply BitVec.eq_of_toNat_eq
  rw [BitVec.toNat_setWidth_of_le hn, BitVec.toNat_setWidth, BitVec.toNat_and, BitVec.toNat_ofNat,
    Nat.mod_eq_of_lt (by omega : 2 ^ n - 1 < 2 ^ 32), Nat.and_two_pow_sub_one_eq_mod]

/-- STAT keeps its upper six bits and takes the low two of the value written (10_state.md R49). -/
theorem readSpr_stat_writeSpr (v : Word) (s : State) :
    readSpr .stat (writeSpr .stat v s) = afterWrite .stat v s := by
  have hbits (x : BitVec 6) (g c : Bool) :
      (x ++ BitVec.ofBool (v.getLsbD 1) ++ BitVec.ofBool (v.getLsbD 0)).setWidth 32 =
        ((x ++ BitVec.ofBool g ++ BitVec.ofBool c).setWidth 32 &&& 0xFFFFFFFC) ||| (v &&& 0x3) := by
    apply BitVec.eq_of_getLsbD_eq
    intro i hi
    simp only [BitVec.getLsbD_setWidth, BitVec.getLsbD_or, BitVec.getLsbD_and, BitVec.getLsbD_append, BitVec.getLsbD_ofBool]
    interval_cases i <;> simp
  exact hbits _ s.statGine s.statSpcp

theorem clearNaBit_clearNaBit (v : Word) : clearNaBit (clearNaBit v) = clearNaBit v := by
  rw [clearNaBit, clearNaBit, BitVec.and_assoc, BitVec.and_self]

/-- Each writable system register reads as the statement says after its write. -/
theorem readSpr_writeSpr_system {a : Byte} {r : Spr} {l : Nat} (h : (a, r, l) ∈ writableSprs) (v : Word) (s : State) :
    readSpr r (writeSpr r v s) = afterWrite r v s := by
  simp only [writableSprs, List.mem_cons, Prod.mk.injEq, List.not_mem_nil, or_false] at h
  obtain ⟨-, rfl, -⟩ | ⟨-, rfl, -⟩ | ⟨-, rfl, -⟩ | ⟨-, rfl, -⟩ | ⟨-, rfl, -⟩ | ⟨-, rfl, -⟩ := h
  · exact readSpr_stat_writeSpr v s
  · rfl
  · rfl
  · exact clearNaBit_clearNaBit v
  · rfl
  · exact setWidth_setWidth_eq_and v (by decide)

/-- A supervisor register reads as written, ECODE in its low byte (10_state.md R59). -/
theorem readSpr_writeSpr_supervisor (r : SupvReg) (v : Word) (s : State) :
    readSpr (.supv r) (writeSpr (.supv r) v s) = if r = .ecode then v &&& 0xFF else v := by
  cases r with
  | ecode => exact setWidth_setWidth_eq_and v (by decide)
  | _ => rfl

/-! ## The register at an address (R247; 10_state.md R57, R58) -/

theorem sprAt_of_writable {a : Byte} {r : Spr} {l : Nat} (h : (a, r, l) ∈ writableSprs) (c : Config) :
    sprAt c a = some r ∧ writeLevel r = l := by
  simp only [writableSprs, List.mem_cons, Prod.mk.injEq, List.not_mem_nil, or_false] at h
  obtain ⟨rfl, rfl, rfl⟩ | ⟨rfl, rfl, rfl⟩ | ⟨rfl, rfl, rfl⟩ | ⟨rfl, rfl, rfl⟩ | ⟨rfl, rfl, rfl⟩ | ⟨rfl, rfl, rfl⟩ := h <;>
    exact ⟨rfl, rfl⟩

theorem sprAt_of_readable {s : State} {a : Byte} {l : Nat} {v : Word} (h : (a, l, v) ∈ readableSprs s) :
    ∃ r, sprAt s.cfg a = some r ∧ readLevel r = l ∧ readSpr r s = v := by
  simp only [readableSprs, List.mem_cons, Prod.mk.injEq, List.not_mem_nil, or_false, BitVec.ofNat_toNat] at h
  obtain ⟨rfl, rfl, rfl⟩ | ⟨rfl, rfl, rfl⟩ | ⟨rfl, rfl, rfl⟩ | ⟨rfl, rfl, rfl⟩ | ⟨rfl, rfl, rfl⟩ | ⟨rfl, rfl, rfl⟩ |
    ⟨rfl, rfl, rfl⟩ := h <;>
    exact ⟨_, rfl, rfl, rfl⟩

theorem supvOffset_injective {r r' : SupvReg} (h : supvOffset r' = supvOffset r) : r' = r := by
  cases r <;> cases r' <;> simp_all [supvOffset]

theorem systemSpr_of_high {a : Byte} (h : 0x15 ≤ a.toNat) : systemSpr a = none := by
  unfold systemSpr
  split <;> simp_all

theorem sprAt_supervisor {c : Config} {base a : Byte} {r : SupvReg} (hbase : c.supvSprBase = some base)
    (hlow : 0x15 ≤ base.toNat) (hr : r ∈ c.supervisorRegs) (ha : a.toNat = base.toNat + supvOffset r) :
    sprAt c a = some (.supv r) := by
  have hfind : (c.supervisorRegs.find? fun r' => base.toNat + supvOffset r' == a.toNat) = some r := by
    cases hfound : c.supervisorRegs.find? fun r' => base.toNat + supvOffset r' == a.toNat with
    | none => exact absurd ha.symm (by simpa using List.find?_eq_none.1 hfound r hr)
    | some r' =>
      have hsame : base.toNat + supvOffset r' = a.toNat := by simpa using List.find?_some hfound
      rw [supvOffset_injective (by omega : supvOffset r' = supvOffset r)]
  have hreserved : a ≠ 0x03 := fun h => by simp [h] at ha; omega
  simp only [sprAt, if_neg hreserved, systemSpr_of_high (by omega : 0x15 ≤ a.toNat), supervisorSpr, hbase, hfind,
    Option.map_some]

theorem sprAt_of_no_base {c : Config} {a : Byte} (hbase : c.supvSprBase = none)
    (ha : a.toNat ∉ [0x00, 0x01, 0x02, 0x04, 0x08, 0x0c, 0x10, 0x14]) : sprAt c a = none := by
  have hsystem : systemSpr a = none := by
    unfold systemSpr
    split <;> simp_all
  simp [sprAt, hsystem, supervisorSpr, hbase]

/-! ## stspr and ldspr -/

section Access

variable {s : State} {i : RegIx} {a : Byte} {r : Spr}

theorem exec_stspr_of_none (h : sprAt s.cfg a = none) : exec (.stspr i a) s = .refused (.noSuchSpr a) := by
  simp only [exec, execStspr, h]

theorem exec_ldspr_of_none (h : sprAt s.cfg a = none) : exec (.ldspr i a) s = .refused (.noSuchSpr a) := by
  simp only [exec, execLdspr, h]

theorem exec_stspr_of_hardCoded (h : sprAt s.cfg a = some r) (hhard : hardCoded s.cfg r = true) :
    exec (.stspr i a) s = .refused (.hardCodedSpr a) := by
  simp only [exec, execStspr, h, hhard, if_true]

theorem exec_stspr_of_low_level (h : sprAt s.cfg a = some r) (hhard : hardCoded s.cfg r = false)
    (hlevel : (level s).toNat < writeLevel r) (hx : s.cfg.excEntryGiven = false) :
    exec (.stspr i a) s = .fault (.exception .insfpem { s with ecode := 0 }) := by
  simp only [exec, execStspr, h, hhard, hlevel, if_true, Bool.false_eq_true, if_false, raise_eq_fault _ hx]
  rfl

theorem exec_ldspr_of_low_level (h : sprAt s.cfg a = some r) (hlevel : (level s).toNat < readLevel r)
    (hx : s.cfg.excEntryGiven = false) : exec (.ldspr i a) s = .fault (.exception .insfpem { s with ecode := 0 }) := by
  simp only [exec, execLdspr, h, hlevel, if_true, raise_eq_fault _ hx]
  rfl

theorem exec_stspr_of_level (h : sprAt s.cfg a = some r) (hhard : hardCoded s.cfg r = false)
    (hlevel : writeLevel r ≤ (level s).toNat) :
    exec (.stspr i a) s = .next (advance (writeSpr r (readReg i s) s)) := by
  simp only [exec, execStspr, h, hhard, Bool.false_eq_true, if_false, if_neg (not_lt.2 hlevel)]

/-- ldspr at an adequate level has the frame of a load. -/
theorem exists_ldspr (h : sprAt s.cfg a = some r) (hlevel : readLevel r ≤ (level s).toNat) :
    ∃ t, exec (.ldspr i a) s = .next t ∧ LoadEffect s t i (readSpr r s) := by
  refine ⟨_, ?_, loadEffect_writeReg s i (readSpr r s) (s.draws + 1) (writeReg_device s i (readSpr r s))⟩
  simp only [exec, execLdspr, h, if_neg (not_lt.2 hlevel)]

/-- A write of a special purpose register leaves everything else. -/
theorem writeSpr_frame (r : Spr) (v : Word) (s : State) :
    SameRegs s (writeSpr r v s) ∧ SameFlags s (writeSpr r v s) ∧ (writeSpr r v s).statPema = s.statPema ∧
      (writeSpr r v s).statPml = s.statPml ∧ (writeSpr r v s).bank = s.bank ∧ SameHidden s (writeSpr r v s) ∧
      (writeSpr r v s).roiPending = s.roiPending ∧ (writeSpr r v s).resource = s.resource ∧
      SameData s (writeSpr r v s) ∧ SameCode s (writeSpr r v s) := by
  rw [writeSpr_eq]
  exact ⟨⟨fun _ _ => rfl, fun _ => rfl⟩, ⟨rfl, rfl⟩, rfl, rfl, rfl, ⟨rfl, rfl, rfl, rfl, rfl⟩, rfl, rfl, fun _ => rfl,
    fun _ => rfl⟩

end Access

/-! ## The bits of STAT (10_state.md R44) -/

/-- The value of STAT with its fields in their places. -/
theorem readSpr_stat_bits (s : State) :
    (readSpr .stat s).toNat < 256 ∧ (readSpr .stat s).getLsbD 7 = flagBit s.draws .z s.statZ ∧
      (readSpr .stat s).getLsbD 6 = flagBit s.draws .ov s.statOV ∧
      (readSpr .stat s).getLsbD 5 = flagBit s.draws .pema (pema s) ∧ (readSpr .stat s).extractLsb' 2 3 = level s ∧
      (readSpr .stat s).getLsbD 1 = s.statGine ∧ (readSpr .stat s).getLsbD 0 = s.statSpcp := by
  have hsmall : (readSpr .stat s).toNat < 256 :=
    (BitVec.toNat_setWidth_of_le (by decide)).trans_lt (statValue s).isLt
  have hlevel : (readSpr .stat s).extractLsb' 2 3 = level s := by
    ext i hi
    simp only [readSpr, statValue, BitVec.getElem_extractLsb', BitVec.getLsbD_setWidth, BitVec.getLsbD_append]
    interval_cases i <;> simp
  refine ⟨hsmall, ?_, ?_, ?_, hlevel, ?_, ?_⟩ <;>
    · simp only [readSpr, statValue, BitVec.getLsbD_setWidth, BitVec.getLsbD_append]
      simp

/-! ## The statements -/

/-- Settles O42 (it holds): each address names its register, which alone is written. -/
theorem stsprWritesTheRegister : Obligations.StsprWritesTheRegister := by
  intro s rsa a r l hr hlevel hhard
  obtain ⟨hspr, rfl⟩ := sprAt_of_writable hr s.cfg
  exact ⟨_, exec_stspr_of_level hspr hhard hlevel, congrArg (· + 4) (writeSpr_pc ..),
    readSpr_writeSpr_system hr _ s, fun r' hr' => readSpr_writeSpr_of_ne hr' _ s, writeSpr_frame r _ s⟩

/-- Settles O44 (it holds): each address names its register. -/
theorem ldsprReadsTheRegister : Obligations.LdsprReadsTheRegister := by
  intro s rd a l v hv hlevel
  obtain ⟨r, hspr, rfl, rfl⟩ := sprAt_of_readable hv
  exact exists_ldspr hspr hlevel

/-- Settles O45 (it holds): the word read is the fields appended. -/
theorem ldsprReadsStat : Obligations.LdsprReadsStat := by
  intro s rd
  obtain ⟨t, hexec, heffect⟩ := exists_ldspr (s := s) (i := rd) (a := 0x02) (r := .stat) rfl (Nat.zero_le _)
  obtain ⟨hsmall, hz, hov, hpema, hpml, hgine, hspcp⟩ := readSpr_stat_bits s
  exact ⟨t, readSpr .stat s, hexec, heffect, hsmall, fun b hb => hz.trans (by rw [hb, flagBit]),
    fun b hb => hov.trans (by rw [hb, flagBit]), fun b hb => hpema.trans (by rw [hb, flagBit]), hpml, hgine, hspcp⟩

/-- Settles O47 (it holds): a base above the system registers leaves the supervisor's addresses to them. -/
theorem supervisorRegistersReadBack : Obligations.SupervisorRegistersReadBack := by
  intro s rd rsa base a r hbase hlow hr ha
  have hspr := sprAt_supervisor hbase hlow hr ha
  refine ⟨exists_ldspr hspr (Nat.zero_le _), fun hlevel => ?_, fun hlevel hx => exec_stspr_of_low_level hspr rfl hlevel hx⟩
  set t := advance (writeSpr (.supv r) (readReg rsa s) s) with ht
  have hcfg : t.cfg = s.cfg := writeSpr_cfg s (.supv r) _
  obtain ⟨u, hu, heffect⟩ := exists_ldspr (s := t) (i := rd) (hcfg ▸ hspr) (Nat.zero_le _)
  have hvalue : readSpr (.supv r) t = if r = .ecode then readReg rsa s &&& 0xFF else readReg rsa s :=
    readSpr_writeSpr_supervisor r _ s
  obtain ⟨hregs, hflags, hpema, hpml, hbank, hhidden, hrest⟩ := writeSpr_frame (.supv r) (readReg rsa s) s
  have hswitches : t.statGine = s.statGine ∧ t.statSpcp = s.statSpcp := by cases r <;> exact ⟨rfl, rfl⟩
  exact ⟨t, u, exec_stspr_of_level hspr rfl hlevel, hu, hvalue ▸ heffect, fun r' hr' => readSpr_writeSpr_of_ne hr' _ s,
    congrArg (· + 4) (writeSpr_pc ..), hregs, hflags, ⟨hpema, hpml, hswitches⟩, hhidden, hbank, hrest⟩

/-- Settles O43 (it holds): the level is looked at before the register is written. -/
theorem sprAccessNeedsTheLevel : Obligations.SprAccessNeedsTheLevel := by
  intro s i hx
  refine ⟨fun a r l hr hlevel hhard => ?_, fun hlevel => exec_ldspr_of_low_level (r := .opcarp) rfl hlevel hx⟩
  obtain ⟨hspr, rfl⟩ := sprAt_of_writable hr s.cfg
  exact exec_stspr_of_low_level hspr hhard hlevel hx

/-- Settles O46 (it holds): such an address names no register, or one that is hard coded. -/
theorem sprRefusals : Obligations.SprRefusals := fun _ _ _ =>
  ⟨fun hbase ha => ⟨exec_ldspr_of_none (sprAt_of_no_base hbase ha), exec_stspr_of_none (sprAt_of_no_base hbase ha)⟩,
    exec_ldspr_of_none rfl, exec_stspr_of_none rfl, exec_stspr_of_hardCoded (r := .cpurev) rfl rfl,
    exec_stspr_of_hardCoded (r := .cpnum) rfl rfl, exec_stspr_of_hardCoded (r := .opcarp) rfl,
    exec_stspr_of_hardCoded (r := .cpidtp) rfl⟩

end Sys2Proof.Machine

/-! PROOFS. lock and test, the permission levels, co-processor words (45_system.md R252 to R258, 47_coprocessor.md R282, R284). -/

namespace Sys2Proof.Machine

/-! ## Permission levels (R255 to R258) -/

section Levels

variable {s : State} {n : Byte}

/-- A target is valid when it exists on the machine; that it is at most 7 follows. -/
theorem validLevel_iff {c : Config} : validLevel c n = true ↔ n.toNat ≠ 6 ∧ n.toNat ≤ c.maxPml.code.toNat := by
  simp only [validLevel, Bool.and_eq_true, decide_eq_true_eq]
  omega

theorem validLevel_eq_false_iff {c : Config} :
    validLevel c n = false ↔ n.toNat = 6 ∨ c.maxPml.code.toNat < n.toNat := by
  rw [← Bool.not_eq_true, validLevel_iff]
  omega

variable (himpl : s.cfg.pmlImplemented = true)

include himpl

theorem advance_setLevel_eq :
    advance (setLevel (n.setWidth 3) s) = { s with statPml := BitVec.ofNat 3 n.toNat, pc := s.pc + 4 } := by
  rw [BitVec.ofNat_toNat, setLevel, if_pos himpl]
  rfl

theorem exec_pmd_of_refused (h : validLevel s.cfg n = false ∨ s.statPml.toNat < n.toNat) :
    exec (.pmd n) s = raise .invpr s := by
  simp only [exec, execPmd, himpl, Bool.true_eq_false, if_false, if_pos h]

theorem exec_pmd_of_granted (hvalid : validLevel s.cfg n = true) (hle : n.toNat ≤ s.statPml.toNat) :
    exec (.pmd n) s = .next (advance (setLevel (n.setWidth 3) s)) := by
  simp only [exec, execPmd, himpl, hvalid, Bool.true_eq_false, if_false, false_or, if_neg (not_lt.2 hle)]

theorem exec_pmir_of_refused (h : validLevel s.cfg n = false ∨ n.toNat < s.statPml.toNat) :
    exec (.pmir n) s = raise .invpr s := by
  simp only [exec, execPmir, himpl, Bool.true_eq_false, if_false, if_pos h]

theorem exec_pmir_of_current (hvalid : validLevel s.cfg n = true) (heq : n.toNat = s.statPml.toNat) :
    exec (.pmir n) s = .next (advance s) := by
  simp only [exec, execPmir, himpl, hvalid, Bool.true_eq_false, if_false, false_or, if_neg heq.not_lt, if_pos heq]

variable (hvalid : validLevel s.cfg n = true) (hlt : s.statPml.toNat < n.toNat)

include hvalid hlt

theorem exec_pmir_of_policy {grants : List (BitVec 3 × BitVec 3)} (hpolicy : s.cfg.pmirPolicy = some grants) :
    exec (.pmir n) s = if (s.statPml, n.setWidth 3) ∈ grants then .next (advance (setLevel (n.setWidth 3) s))
      else raise .invpr s := by
  simp only [exec, execPmir, himpl, hvalid, Bool.true_eq_false, if_false, false_or, if_neg hlt.le.not_gt, if_neg hlt.ne',
    hpolicy, List.contains_iff_mem]

theorem exec_pmir_of_no_policy (hpolicy : s.cfg.pmirPolicy = none) :
    exec (.pmir n) s = if Config.freeGrant s.draws s.statPml (n.setWidth 3) then
        .next (advance { setLevel (n.setWidth 3) s with draws := s.draws + 1 })
      else raise .invpr { s with draws := s.draws + 1 } := by
  simp only [exec, execPmir, himpl, hvalid, Bool.true_eq_false, if_false, false_or, if_neg hlt.le.not_gt, if_neg hlt.ne',
    hpolicy]

end Levels

/-! ## Co-processor words (47_coprocessor.md R282, R284) -/

section CoProcessor

variable {s : State} {op : BitVec 6} {w : Word}

theorem claimed_iff {c : Config} : claimed c op = true ↔ c.cpnum ≠ 0 ∧ op ∈ c.coProcClaimed := by
  simp [claimed]

theorem claimed_eq_false {c : Config} (h : c.cpnum = 0 ∨ op ∉ c.coProcClaimed) : claimed c op = false := by
  rw [← Bool.not_eq_true, claimed_iff]
  tauto

theorem execCoProc_of_claimed (h : claimed s.cfg op = true) :
    execCoProc op w s = if op ∈ s.cfg.coProcExec then .next (runCoProc w s) else .refused .noCoProcExec := by
  simp only [execCoProc, h, if_true, List.contains_iff_mem]

theorem execCoProc_of_spcp_clear (h : claimed s.cfg op = false) (hspcp : s.statSpcp = false) :
    execCoProc op w s = .fault (.illegalInstruction none) := by
  simp only [execCoProc, h, hspcp, Bool.false_eq_true, if_false, if_true]

theorem execCoProc_of_spcp_set (h : claimed s.cfg op = false) (hspcp : s.statSpcp = true) :
    execCoProc op w s = if intEnabled s .cpmi then takeInterrupt .cpmi s else .refused .cpmiNotEnabled := by
  simp only [execCoProc, h, hspcp, Bool.false_eq_true, Bool.true_eq_false, if_false]

theorem intEnabled_cpmi :
    intEnabled s .cpmi = true ↔ s.statGine = true ∧ s.uinten.getLsbD s.cfg.uintenCpmiBit.toNat = true := by
  simp [intEnabled, enableBit]

end CoProcessor

/-! ## Synchronisation (R252, R254) -/

section Synchronisation

variable {s : State} {w : Resource}

theorem exec_lock_of_resource (rd rsa : RegIx) (hw : s.cfg.resource = some w) :
    exec (.lock rd rsa) s = .next (advance
      { writeReg rd (lockAnswer w s.resource (readReg rsa s)).1 s with
        resource := (lockAnswer w s.resource (readReg rsa s)).2 }) := by
  simp only [exec, execLock, hw]

theorem exec_test_of_resource (rd rsa : RegIx) (hw : s.cfg.resource = some w) :
    exec (.test rd rsa) s = .next (advance (writeReg rd (testAnswer w s.resource (readReg rsa s)) s)) := by
  simp only [exec, execTest, hw]

end Synchronisation

/-! ## The statements -/

/-- Settles O49 (it holds): the resource answers; `lock` also moves its state. -/
theorem lockAndTest : Obligations.LockAndTest := by
  intro s rd rsa
  refine ⟨fun w hw => ⟨?_, ?_⟩, fun h => ?_⟩
  · obtain ⟨hstat, hsprs, hhidden, hecode, hbank, -, hcode⟩ :=
      sameSystem_writeBank s s.bank rd (lockAnswer w s.resource (readReg rsa s)).1
    exact ⟨_, exec_lock_of_resource rd rsa hw, congrArg (· + 4) (writeReg_pc ..), regWritten_writeBank s s.bank rd _, rfl,
      sameFlags_writeBank s s.bank rd _, hstat, hsprs, hhidden, hecode, hbank, writeReg_roiPending .., hcode,
      sameData_writeBank s s.bank rd _⟩
  · exact ⟨_, exec_test_of_resource rd rsa hw, loadEffect_writeReg s rd (testAnswer w s.resource (readReg rsa s))
      (writeReg rd (testAnswer w s.resource (readReg rsa s)) s).draws (writeReg_device s rd _)⟩
  · simp only [exec, execLock, execTest, h, and_self]

/-- Settles O50 (it holds): a valid target is one that exists. -/
theorem permissionDecrease : Obligations.PermissionDecrease := by
  intro s n himpl
  refine ⟨fun hle hsix htop => ⟨_, exec_pmd_of_granted himpl (validLevel_iff.2 ⟨hsix, htop⟩) hle, advance_setLevel_eq himpl⟩,
    fun h hx => ?_⟩
  rw [exec_pmd_of_refused himpl (by rw [validLevel_eq_false_iff]; tauto), raise_eq_fault _ hx]
  rfl

/-- Settles O51 (it holds): the target is lower, the current level or higher, where the policy decides. -/
theorem permissionIncreaseRequest : Obligations.PermissionIncreaseRequest := by
  intro s n himpl
  refine ⟨fun heq hsix htop => exec_pmir_of_current himpl (validLevel_iff.2 ⟨hsix, htop⟩) heq, fun h hx => ?_,
    fun hlt hsix htop grants hpolicy => ?_, fun hlt hsix htop hpolicy hx => ?_⟩
  · rw [exec_pmir_of_refused himpl (by rw [validLevel_eq_false_iff]; tauto), raise_eq_fault _ hx]
    rfl
  · rw [exec_pmir_of_policy himpl (validLevel_iff.2 ⟨hsix, htop⟩) hlt hpolicy, BitVec.ofNat_toNat]
    refine ⟨fun hgrant => ⟨_, if_pos hgrant, ?_⟩, fun hgrant hx => ?_⟩
    · exact (advance_setLevel_eq himpl).trans (by rw [BitVec.ofNat_toNat])
    · rw [if_neg hgrant, raise_eq_fault _ hx]
      rfl
  · rw [exec_pmir_of_no_policy himpl (validLevel_iff.2 ⟨hsix, htop⟩) hlt hpolicy]
    split
    · left
      rw [BitVec.ofNat_toNat, setLevel, if_pos himpl]
      rfl
    · right
      exact raise_eq_fault _ hx

/-- Settles O53 (it holds): unclaimed words by SPCP, claimed ones by whether their function is given. -/
theorem coProcessorWords : Obligations.CoProcessorWords := by
  intro s op w
  refine ⟨fun hfree => ⟨execCoProc_of_spcp_clear (claimed_eq_false hfree), fun hspcp hgine hbit => ?_,
    fun hspcp hoff => ?_⟩, fun hcpnum hclaimed => ?_⟩
  · rw [execCoProc_of_spcp_set (claimed_eq_false hfree) hspcp, if_pos (intEnabled_cpmi.2 ⟨hgine, hbit⟩)]
    exact ⟨takeInterrupt_eq_fault .cpmi, fun hentry => ⟨_, takeInterrupt_eq_next .cpmi hentry, rfl, rfl⟩⟩
  · rw [execCoProc_of_spcp_set (claimed_eq_false hfree) hspcp, if_neg]
    rw [intEnabled_cpmi]
    rcases hoff with hoff | hoff <;> simp [hoff]
  · rw [execCoProc_of_claimed (claimed_iff.2 ⟨hcpnum, hclaimed⟩)]
    exact ⟨fun hexec => ⟨_, if_pos hexec, rfl, memWf_storeBytes _ _⟩, fun hexec => if_neg hexec⟩

end Sys2Proof.Machine
